-- ==== Sys2Proof/Word.lean ====
section
/-! DEFINITION. The value types of 00_scope.md rules R4 and R12, and the shape of the command latch (10_state.md rule R38). -/

namespace Sys2Proof

/-- `Word32` of rule R12. -/
abbrev Word := BitVec 32

/-- `Half16` of rule R12. -/
abbrev Half := BitVec 16

/-- One byte of a serialised block, key or table (20_memory.md rule R67). -/
abbrev Byte := BitVec 8

/-- `Block` of rule R12: word 0 is `w`, word 1 is `x`, word 2 is `y` and word 3 is `z`. -/
structure Block where
  w : Word
  x : Word
  y : Word
  z : Word
  deriving DecidableEq, Repr, Inhabited

/-- `Key` of rule R12: the eight words `K[0..7]`. -/
structure Key where
  k0 : Word
  k1 : Word
  k2 : Word
  k3 : Word
  k4 : Word
  k5 : Word
  k6 : Word
  k7 : Word
  deriving DecidableEq, Repr, Inhabited

/-- `KeyState` of rule R12: "the same shape as `Key`". -/
abbrev KeyState := Key

/-- `RoundKeyTable` of rule R12: the 17 blocks `RK[0..16]`. -/
abbrev RoundKeyTable := Vector Block 17

/-- A round class `j`, 0..3 (00_scope.md rule R4). -/
abbrev RoundClass := Fin 4

/-- A round index, 0..15 (00_scope.md rule R4). -/
abbrev RoundIndex := Fin 16

/-- A rotate amount inside the contract `0 < amount < N` of 40_rotate.md rule R102. The contract stands in
the type: an amount outside it is no value of this type, so no rotation gives it a result. -/
abbrev Amount (n : Nat) := { a : Nat // 0 < a ∧ a < n }

/-- The all-zero block: a valid block, and the reset value of DIN and DOUT (10_state.md rule R41). -/
def Block.zero : Block := ⟨0, 0, 0, 0⟩

/-- The all-zero key: a valid key, and the reset value of KEY (10_state.md rule R41). -/
def Key.zero : Key := ⟨0, 0, 0, 0, 0, 0, 0, 0⟩

/-- LATCH, the sequencer's private copy of a command (10_state.md rule R38). -/
structure Latch where
  op     : BitVec 4
  rclass : BitVec 2
  amt    : BitVec 5
  din    : Block
  key    : Key
  deriving DecidableEq, Repr, Inhabited

end Sys2Proof
end

