-- ==== Sys2Proof/Config.lean ====
section
/-! DEFINITION. The implementation parameters of 00_scope.md rule R5 (and `IRQ_LINE` of 92_eei_decisions.md D26), and the model's one free value. -/

namespace Sys2Proof

/-- The parameters of rule R5 and D26. They are data that no step changes, held in `State.params`, so that a
statement about every state holds for every choice of them (assumption log 2). -/
structure Params where
  /-- `ARADI_BASE`: byte address of the register window on the host bus. OPEN (D2). -/
  base : Nat
  /-- `HAS_PRIM_OPS`: whether commands 0x4-0xA exist. Default `true` (D7). -/
  hasPrimOps : Bool
  /-- `LAT_ENC`: OPEN, no rule depends on it (D10). -/
  latEnc : Nat
  /-- `LAT_DEC`: OPEN, no rule depends on it (D10). -/
  latDec : Nat
  /-- `LAT_KEYEXP`: OPEN, no rule depends on it (D10). -/
  latKeyexp : Nat
  /-- `LAT_PRIM`: OPEN, no rule depends on it (D10). -/
  latPrim : Nat
  /-- `IRQ_LINE`: the host interrupt line `irq` drives. OPEN, the platform's (D26). -/
  irqLine : Nat
  deriving DecidableEq, Repr

/-- The ranges rule R5 gives the parameters: the base is aligned to 0x400 and every latency is at least 1. -/
abbrev Params.wf (p : Params) : Prop :=
  p.base % 0x400 = 0 ∧ 1 ≤ p.latEnc ∧ 1 ≤ p.latDec ∧ 1 ≤ p.latKeyexp ∧ 1 ≤ p.latPrim

/-- The parameters `State.reset` carries: `HAS_PRIM_OPS` is `true` as the spec's default says; the OPEN ones
stand at a value the model names (DESIGN CHOICE, assumption log 2). -/
def Params.default : Params :=
  { base := 0, hasPrimOps := true, latEnc := 1, latDec := 1, latKeyexp := 1, latPrim := 1, irqLine := 0 }

/-- FREE VALUE: what a reset leaves in LATCH, which 70_reset_and_hazards.md rule R260 calls unspecified and
93_implementation_defined.md I11 "any value". The `n`-th draw (`State.draws`); nothing constrains it. -/
opaque Config.freeLatch : Nat → Latch

end Sys2Proof
end

