-- ==== Sys2Proof/Syntax.lean ====
section
/-! DEFINITION. The commands of 30_encoding.md rule R82 and the instructions of spec/opcode_table.json, one constructor a row. -/

namespace Sys2Proof

/-- The ten commands the opcode map of rule R82 names. -/
inductive Cmd where
  | enc | dec | keyexp | sbox | sboxinv | lin | rot16 | rot32 | m0 | m1
  deriving DecidableEq, Repr

/-- The fields of a command word beside OP and START (rule R80). Every command word carries and stores all
three, whichever of them its operation reads. -/
structure Fields where
  rclass : BitVec 2
  amt    : BitVec 5
  ie     : Bool
  deriving DecidableEq, Repr

/-- One write of the command word: an instruction of this hardware (rule R80, "every command is exactly one
write of this word"). -/
inductive Instr where
  /-- ENC, 44_cipher.md rule R194. -/
  | enc (f : Fields)
  /-- DEC, 44_cipher.md rule R195. -/
  | dec (f : Fields)
  /-- KEYEXP, 43_keyschedule.md rule R171. -/
  | keyexp (f : Fields)
  /-- SBOX, 41_sbox.md rule R124. -/
  | sbox (f : Fields)
  /-- SBOXINV, 41_sbox.md rule R125. -/
  | sboxinv (f : Fields)
  /-- LIN, 42_linear.md rule R145. -/
  | lin (f : Fields)
  /-- ROT16, 40_rotate.md rule R103. -/
  | rot16 (f : Fields)
  /-- ROT32, 40_rotate.md rule R104. -/
  | rot32 (f : Fields)
  /-- M0, 43_keyschedule.md rule R169. -/
  | m0 (f : Fields)
  /-- M1, 43_keyschedule.md rule R170. -/
  | m1 (f : Fields)
  /-- CFG, 30_encoding.md rule R88: START = 0, any OP. -/
  | cfg (op : BitVec 4) (f : Fields)
  /-- START with the reserved OP 0x0, 30_encoding.md rule R83. -/
  | reserved0 (f : Fields)
  /-- START with the reserved OP 0xB, 30_encoding.md rule R83. -/
  | reservedB (f : Fields)
  /-- START with a reserved OP 0xC-0xF, 30_encoding.md rule R83; `op` is the OP field. -/
  | reservedCF (op : BitVec 4) (f : Fields)
  deriving DecidableEq, Repr

end Sys2Proof
end

