-- ==== Sys2Proof/Machine/State.lean ====
section
/-! DEFINITION. The state of the block (10_state.md rule R20), the host's side of the bus, the schedule, and the reasons a step stops. -/

namespace Sys2Proof.Machine

/-! ### Registers -/

/-- CTRL's stored fields (10_state.md rule R22). START and the reserved bits have no storage (rules R27 and R28). -/
structure Ctrl where
  op     : BitVec 4
  rclass : BitVec 2
  amt    : BitVec 5
  ie     : Bool
  deriving DecidableEq, Repr

/-- STATUS's fields (10_state.md rule R29). The reserved bits have no storage (rule R28). -/
structure Status where
  busy    : Bool
  done    : Bool
  err     : Bool
  errcode : BitVec 4
  deriving DecidableEq, Repr

/-- A register of the window, by its name (20_memory.md rule R61). -/
inductive Reg where
  | id
  | ctrl
  | status
  | din (k : Fin 4)
  | dout (k : Fin 4)
  | key (k : Fin 8)
  | rk (r : Fin 17) (k : Fin 4)
  deriving DecidableEq, Repr

/-- The command-level errors (60_exceptions.md rule R220). -/
inductive CmdError where
  | illegalOp
  | illegalAmt
  | busyWrite
  deriving DecidableEq, Repr

/-! ### The bus -/

/-- The size of a host access (20_memory.md rule R62). Only `word` is accepted. -/
inductive Size where
  | byte | half | word | double
  deriving DecidableEq, Repr

/-- One host access. `lanes` are the byte lanes a write drives: a write that leaves one out is a
partial-byte-lane write (20_memory.md rule R62). -/
inductive Access where
  | read (addr : Nat) (size : Size)
  | write (addr : Nat) (size : Size) (lanes : BitVec 4) (data : Word)
  deriving DecidableEq, Repr

/-- The bus response (00_scope.md rule R10). -/
inductive Resp where
  | ok
  | busErr
  deriving DecidableEq, Repr

/-- What the block answers on the bus: `BusRead` gives `(resp, data)` and `BusWrite` gives `resp` (00_scope.md rule R10). -/
inductive Reply where
  | read (resp : Resp) (data : Word)
  | write (resp : Resp)
  deriving DecidableEq, Repr

/-! ### The schedule -/

/-- One turn of the schedule: which agent moves, and with what. The interleaving of host accesses, completions
and resets is free (30_encoding.md rule R94, 70_reset_and_hazards.md rule R260, 93_implementation_defined.md
I12 and I19), so it is data of the state and a statement about every state holds for every interleaving. -/
inductive Turn where
  /-- A host access reaches the block (20_memory.md rule R73). -/
  | host (a : Access)
  /-- The sequencer's turn: `Complete()` where it is enabled (30_encoding.md rule R94). -/
  | sequencer
  /-- The environment asserts reset (70_reset_and_hazards.md rule R260). -/
  | reset
  /-- The platform gates the clock for a while (60_exceptions.md rule R234). -/
  | clockGate
  /-- A bus access overlaps the assertion of reset, which 70_reset_and_hazards.md rule R261 puts outside the model. -/
  | accessDuringReset (a : Access)
  deriving DecidableEq, Repr

/-! ### The state -/

/-- The machine. `ctrl` to `latch` are the architectural state of 10_state.md rule R20 (ID is a constant and
`irq` a function of the rest). `params` are the parameters of 00_scope.md rule R5, which no step changes.
`agenda` is what the outside world still does, earliest first, and `replies` what the block has answered,
earliest first (70_reset_and_hazards.md rule R270: a run's result holds the data of every read).
`draws` counts the free values drawn: the model's own field (assumption log 4). -/
structure State where
  params  : Params
  ctrl    : Ctrl
  status  : Status
  din     : Block
  dout    : Block
  key     : Key
  rk      : RoundKeyTable
  latch   : Latch
  draws   : Nat
  agenda  : List Turn
  replies : List Reply
  deriving DecidableEq, Repr

/-- Why the machine stops. Both name a LATCH that no accepted START can have written (30_encoding.md rules
R93 and R95). -/
inductive Fault where
  /-- Raised by the completion step when LATCH.op is a reserved OP: "the dispatch has no default arm that
  produces a value" (30_encoding.md rule R95). SAFE: the model stops where the spec has no behaviour, and no
  state a run from reset reaches raises it. -/
  | latchedReservedOp
  /-- Raised by the completion of ROT16 or ROT32 when LATCH.amt is outside the rotate contract: "a model must
  not give `rot16(v, 0)` ... a value" (40_rotate.md rule R102). SAFE, as above. -/
  | latchedIllegalAmount
  deriving DecidableEq, Repr

/-- Why a step is refused: what the spec puts outside the model, and an instruction with no meaning yet. -/
inductive Refusal where
  /-- Raised by `exec` for an instruction that has no meaning yet. SAFE. No arm of this model uses it. -/
  | notModelled (mnemonic : String)
  /-- Raised by the schedule when a bus access overlaps reset: "outside the model, and the platform must not
  issue one" (70_reset_and_hazards.md rule R261, 93_implementation_defined.md I17). SAFE. -/
  | accessOverlapsReset
  /-- Raised by the schedule when the clock is gated while BUSY=1: "the platform may gate only while BUSY=0"
  (60_exceptions.md rule R234, 93_implementation_defined.md I22). SAFE. -/
  | clockGatedWhileBusy
  deriving DecidableEq, Repr

/-- The result of a step of this machine. -/
abbrev Result := Host.Outcome State Fault Refusal

/-- CTRL after reset (10_state.md rule R41). -/
def Ctrl.zero : Ctrl := { op := 0, rclass := 0, amt := 0, ie := false }

/-- STATUS after reset (10_state.md rule R41). -/
def Status.zero : Status := { busy := false, done := false, err := false, errcode := 0 }

/-- LATCH in `State.reset`: the spec leaves it unspecified, zero is the model's (DESIGN CHOICE, assumption log 3). -/
def Latch.zero : Latch := { op := 0, rclass := 0, amt := 0, din := Block.zero, key := Key.zero }

/-- The machine right after reset (10_state.md rule R41), with nothing on its agenda and no reply given. -/
def State.reset : State :=
  { params  := Params.default
    ctrl    := Ctrl.zero
    status  := Status.zero
    din     := Block.zero
    dout    := Block.zero
    key     := Key.zero
    rk      := Vector.replicate 17 Block.zero
    latch   := Latch.zero
    draws   := 0
    agenda  := []
    replies := [] }

end Sys2Proof.Machine
end

