-- ==== Sys2Proof/Machine/Flags.lean ====
section
/-! DEFINITION. Every change of STATUS, and the interrupt output. -/

namespace Sys2Proof.Machine

/-- The code of an error (60_exceptions.md rule R220). -/
def errorCode (e : CmdError) : BitVec 4 :=
  match e with
  | .illegalOp => 1#4
  | .illegalAmt => 2#4
  | .busyWrite => 3#4

/-- STATUS after `raise Error(code)` (60_exceptions.md rule R224). -/
def statusRaise (e : CmdError) (t : Status) : Status := { t with err := true, errcode := errorCode e }

/-- STATUS after a write of `v` to it (10_state.md rule R29): a 1 in bit 1 clears DONE, a 1 in bit 2 clears ERR
and ERRCODE, and every other bit is discarded. -/
def statusClear (v : Word) (t : Status) : Status :=
  { t with
    done := t.done && !v.getLsbD 1
    err := t.err && !v.getLsbD 2
    errcode := if v.getLsbD 2 then 0#4 else t.errcode }

/-- STATUS after an accepted START (30_encoding.md rule R93). -/
def statusAccept (t : Status) : Status := { t with busy := true, done := false }

/-- STATUS after a completion (30_encoding.md rule R94). -/
def statusComplete (t : Status) : Status := { t with busy := false, done := true }

/-- The interrupt output (10_state.md rule R39, 60_exceptions.md rule R229): a level, with no storage of its own. -/
def irq (s : State) : Bool := s.ctrl.ie && (s.status.done || s.status.err)

end Sys2Proof.Machine
end

