-- ==== Sys2Proof/WellFormed.lean ====
section
/-! DEFINITION. Which instruction terms stand for a command word. The widths of the fields stand in their types; the one check left is the OP range of the last reserved row. -/

namespace Sys2Proof

/-- A term stands for a word of its table row. Every RCLASS and AMT value is a well-formed encoding
(10_state.md rules R24 and R25), also the rotate amounts that are refused when issued. -/
def Instr.wellFormed (i : Instr) : Bool :=
  match i with
  | .enc _ => true
  | .dec _ => true
  | .keyexp _ => true
  | .sbox _ => true
  | .sboxinv _ => true
  | .lin _ => true
  | .rot16 _ => true
  | .rot32 _ => true
  | .m0 _ => true
  | .m1 _ => true
  | .cfg _ _ => true
  | .reserved0 _ => true
  | .reservedB _ => true
  | .reservedCF op _ => decide (0xC#4 ≤ op)

end Sys2Proof
end

