-- ==== Sys2Proof/Decode.lean ====
section
/-! DEFINITION. The command word of 30_encoding.md rules R80-R92: its fields, the opcode map, the decoder, the encoder, and spec/opcode_table.json as data. -/

namespace Sys2Proof

/-! ### Fields (rules R80 and R81) -/

/-- `OP = v[3:0]` (rule R81). -/
def wordOp (v : Word) : BitVec 4 := v.extractLsb' 0 4

/-- `RCLASS = v[5:4]`, `AMT = v[12:8]` and `IE = v[16]` (rule R81). -/
def wordFields (v : Word) : Fields :=
  { rclass := v.extractLsb' 4 2, amt := v.extractLsb' 8 5, ie := v.getLsbD 16 }

/-- `START = v[31]` (rule R81). -/
def wordStart (v : Word) : Bool := v.getLsbD 31

/-- The layout of rule R80, every reserved bit (7:6, 15:13, 30:17) 0. -/
def packWord (start : Bool) (op : BitVec 4) (f : Fields) : Word :=
  BitVec.ofBool start ++ 0#14 ++ BitVec.ofBool f.ie ++ 0#3 ++ f.amt ++ 0#2 ++ f.rclass ++ op

/-! ### The opcode map (rule R82) -/

/-- The OP value of a command (rule R82). -/
def opcode (c : Cmd) : BitVec 4 :=
  match c with
  | .enc => 0x1#4
  | .dec => 0x2#4
  | .keyexp => 0x3#4
  | .sbox => 0x4#4
  | .sboxinv => 0x5#4
  | .lin => 0x6#4
  | .rot16 => 0x7#4
  | .rot32 => 0x8#4
  | .m0 => 0x9#4
  | .m1 => 0xA#4

/-- The command an OP value selects; none for the reserved values 0x0 and 0xB-0xF (rules R82 and R83). -/
def cmdOf (op : BitVec 4) : Option Cmd :=
  if op = 0x1#4 then some .enc
  else if op = 0x2#4 then some .dec
  else if op = 0x3#4 then some .keyexp
  else if op = 0x4#4 then some .sbox
  else if op = 0x5#4 then some .sboxinv
  else if op = 0x6#4 then some .lin
  else if op = 0x7#4 then some .rot16
  else if op = 0x8#4 then some .rot32
  else if op = 0x9#4 then some .m0
  else if op = 0xA#4 then some .m1
  else none

/-- The instruction of a command with START = 1. -/
def Cmd.instr (c : Cmd) (f : Fields) : Instr :=
  match c with
  | .enc => .enc f
  | .dec => .dec f
  | .keyexp => .keyexp f
  | .sbox => .sbox f
  | .sboxinv => .sboxinv f
  | .lin => .lin f
  | .rot16 => .rot16 f
  | .rot32 => .rot32 f
  | .m0 => .m0 f
  | .m1 => .m1 f

/-- The reserved START words, by their table row: OP 0x0, 0xB and 0xC-0xF (rule R83). -/
def reservedInstr (op : BitVec 4) (f : Fields) : Instr :=
  if op = 0x0#4 then .reserved0 f else if op = 0xB#4 then .reservedB f else .reservedCF op f

/-! ### Decoding -/

/-- The instruction a 32-bit value written to CTRL is: total, every word has exactly one (rule R92). -/
def decodeWord (v : Word) : Instr :=
  if wordStart v then
    match cmdOf (wordOp v) with
    | some c => c.instr (wordFields v)
    | none => reservedInstr (wordOp v) (wordFields v)
  else .cfg (wordOp v) (wordFields v)

/-- Why a string of bytes is no command. -/
inductive DecodeError where
  /-- It is not four bytes: a command is exactly one 32-bit word (rule R80). It holds the number of bytes. -/
  | notOneWord (bytes : Nat)
  deriving DecidableEq, Repr

/-- Four bytes as a word, the byte at the lowest address in bits 7:0 (20_memory.md rule R67). -/
def wordOfBytes (b0 b1 b2 b3 : Byte) : Word := b3 ++ b2 ++ b1 ++ b0

/-- A word as its four bytes, lowest address first (20_memory.md rule R67). -/
def bytesOfWord (v : Word) : List Byte :=
  [v.extractLsb' 0 8, v.extractLsb' 8 8, v.extractLsb' 16 8, v.extractLsb' 24 8]

/-- The decoder on bytes: total, rejecting by name whatever is not one word long. -/
def decodeBytes (bytes : List Byte) : Except DecodeError Instr :=
  match bytes with
  | [b0, b1, b2, b3] => .ok (decodeWord (wordOfBytes b0 b1 b2 b3))
  | other => .error (.notOneWord other.length)

/-- The decoder on a row of spec/opcode_table.json: bit 0 of `w` is bit 0 of the command word, bits above
`nbits` are 0, and a row longer than a command word is none. -/
def decodeTableWord (nbits w : Nat) : Option Instr :=
  if nbits ≤ 32 then
    match decodeBytes (bytesOfWord (BitVec.ofNat 32 (w % 2 ^ nbits))) with
    | .ok i => some i
    | .error _ => none
  else none

/-! ### Encoding -/

/-- The command word of a well-formed instruction (rules R80, R82 and R88). -/
def encode (i : Instr) : Word :=
  match i with
  | .enc f => packWord true 0x1#4 f
  | .dec f => packWord true 0x2#4 f
  | .keyexp f => packWord true 0x3#4 f
  | .sbox f => packWord true 0x4#4 f
  | .sboxinv f => packWord true 0x5#4 f
  | .lin f => packWord true 0x6#4 f
  | .rot16 f => packWord true 0x7#4 f
  | .rot32 f => packWord true 0x8#4 f
  | .m0 f => packWord true 0x9#4 f
  | .m1 f => packWord true 0xA#4 f
  | .cfg op f => packWord false op f
  | .reserved0 f => packWord true 0x0#4 f
  | .reservedB f => packWord true 0xB#4 f
  | .reservedCF op f => packWord true op f

/-- The bits of a command word that are no reserved bits (rules R80 and R87). -/
def fieldMask : Word := 0x80011F3F#32

/-! ### spec/opcode_table.json as data -/

/-- One row of the table: a word belongs to it when the bits under `mask` are those of `pattern`. -/
structure Row where
  pattern : Word
  mask    : Word
  deriving DecidableEq, Repr

/-- A word belongs to a row. -/
def Row.holds (r : Row) (v : Word) : Bool := v &&& r.mask == r.pattern

/-- The row of each instruction, its `match` and `mask` as the table gives them. -/
def Instr.row (i : Instr) : Row :=
  match i with
  | .enc _ => ⟨0x80000001#32, 0x8000000F#32⟩
  | .dec _ => ⟨0x80000002#32, 0x8000000F#32⟩
  | .keyexp _ => ⟨0x80000003#32, 0x8000000F#32⟩
  | .sbox _ => ⟨0x80000004#32, 0x8000000F#32⟩
  | .sboxinv _ => ⟨0x80000005#32, 0x8000000F#32⟩
  | .lin _ => ⟨0x80000006#32, 0x8000000F#32⟩
  | .rot16 _ => ⟨0x80000007#32, 0x8000000F#32⟩
  | .rot32 _ => ⟨0x80000008#32, 0x8000000F#32⟩
  | .m0 _ => ⟨0x80000009#32, 0x8000000F#32⟩
  | .m1 _ => ⟨0x8000000A#32, 0x8000000F#32⟩
  | .cfg _ _ => ⟨0x00000000#32, 0x80000000#32⟩
  | .reserved0 _ => ⟨0x80000000#32, 0x8000000F#32⟩
  | .reservedB _ => ⟨0x8000000B#32, 0x8000000F#32⟩
  | .reservedCF _ _ => ⟨0x8000000C#32, 0x8000000C#32⟩

/-- The 14 rows, in the table's order. -/
def opcodeTable : List Row :=
  [⟨0x80000001#32, 0x8000000F#32⟩, ⟨0x80000002#32, 0x8000000F#32⟩, ⟨0x80000003#32, 0x8000000F#32⟩, ⟨0x80000004#32, 0x8000000F#32⟩,
   ⟨0x80000005#32, 0x8000000F#32⟩, ⟨0x80000006#32, 0x8000000F#32⟩, ⟨0x80000007#32, 0x8000000F#32⟩, ⟨0x80000008#32, 0x8000000F#32⟩,
   ⟨0x80000009#32, 0x8000000F#32⟩, ⟨0x8000000A#32, 0x8000000F#32⟩, ⟨0x00000000#32, 0x80000000#32⟩, ⟨0x80000000#32, 0x8000000F#32⟩,
   ⟨0x8000000B#32, 0x8000000F#32⟩, ⟨0x8000000C#32, 0x8000000C#32⟩]

end Sys2Proof
end

