-- ==== Sys2Proof/Machine/Operands.lean ====
section
/-! DEFINITION. Operand forms: words of blocks and keys, legality of a command's operands, the register map and reading a register. -/

namespace Sys2Proof.Machine

/-! ### Words of a block and a key (00_scope.md rule R12, 20_memory.md rule R68) -/

/-- Word `k` of a block. -/
def blockWord (b : Block) (k : Fin 4) : Word :=
  match k with
  | 0 => b.w
  | 1 => b.x
  | 2 => b.y
  | 3 => b.z

/-- A block with word `k` replaced. -/
def setBlockWord (b : Block) (k : Fin 4) (v : Word) : Block :=
  match k with
  | 0 => { b with w := v }
  | 1 => { b with x := v }
  | 2 => { b with y := v }
  | 3 => { b with z := v }

/-- Word `k` of a key. -/
def keyWord (b : Key) (k : Fin 8) : Word :=
  match k with
  | 0 => b.k0
  | 1 => b.k1
  | 2 => b.k2
  | 3 => b.k3
  | 4 => b.k4
  | 5 => b.k5
  | 6 => b.k6
  | 7 => b.k7

/-- A key with word `k` replaced. -/
def setKeyWord (b : Key) (k : Fin 8) (v : Word) : Key :=
  match k with
  | 0 => { b with k0 := v }
  | 1 => { b with k1 := v }
  | 2 => { b with k2 := v }
  | 3 => { b with k3 := v }
  | 4 => { b with k4 := v }
  | 5 => { b with k5 := v }
  | 6 => { b with k6 := v }
  | 7 => { b with k7 := v }

/-! ### Legality of a command's operands -/

/-- The primitive commands, which exist only when `HAS_PRIM_OPS` is true (30_encoding.md rule R84). -/
def primitive (c : Cmd) : Bool :=
  match c with
  | .enc => false
  | .dec => false
  | .keyexp => false
  | .sbox => true
  | .sboxinv => true
  | .lin => true
  | .rot16 => true
  | .rot32 => true
  | .m0 => true
  | .m1 => true

/-- The OP selects a command this block has (30_encoding.md rules R83 and R84). -/
def opPresent (p : Params) (op : BitVec 4) : Bool :=
  match cmdOf op with
  | some c => !primitive c || p.hasPrimOps
  | none => false

/-- An AMT field as a rotate amount of an `n`-bit rotation; none outside the contract (40_rotate.md rule R102). -/
def amountOf (n : Nat) (amt : BitVec 5) : Option (Amount n) :=
  if h : 0 < amt.toNat ∧ amt.toNat < n then some ⟨amt.toNat, h⟩ else none

/-- AMT legality (30_encoding.md rule R86): 1..15 for ROT16, 1..31 for ROT32, not checked for any other OP. -/
def amtLegal (op : BitVec 4) (amt : BitVec 5) : Bool :=
  match cmdOf op with
  | some .rot16 => (amountOf 16 amt).isSome
  | some .rot32 => (amountOf 32 amt).isSome
  | _ => true

/-- RCLASS as the round class LIN passes on: "all four values are legal" (10_state.md rule R24). -/
def classOf (rclass : BitVec 2) : RoundClass := rclass.toFin

/-! ### The register map (20_memory.md rule R61) -/

/-- The byte offset of a register from `ARADI_BASE`. -/
def regOffset (r : Reg) : Nat :=
  match r with
  | .id => 0x000
  | .ctrl => 0x004
  | .status => 0x008
  | .din k => 0x010 + 4 * k.val
  | .dout k => 0x020 + 4 * k.val
  | .key k => 0x040 + 4 * k.val
  | .rk n k => 0x100 + 0x10 * n.val + 4 * k.val

/-- The register at an offset; none where the offset is misaligned (rule R63) or unmapped (rule R64). -/
def regAt (off : Nat) : Option Reg :=
  if off % 4 ≠ 0 then none
  else if off = 0x000 then some .id
  else if off = 0x004 then some .ctrl
  else if off = 0x008 then some .status
  else if h : 0x010 ≤ off ∧ off < 0x020 then some (.din ⟨(off - 0x010) / 4, by omega⟩)
  else if h : 0x020 ≤ off ∧ off < 0x030 then some (.dout ⟨(off - 0x020) / 4, by omega⟩)
  else if h : 0x040 ≤ off ∧ off < 0x060 then some (.key ⟨(off - 0x040) / 4, by omega⟩)
  else if h : 0x100 ≤ off ∧ off < 0x210 then
    some (.rk ⟨(off - 0x100) / 0x10, by omega⟩ ⟨(off - 0x100) % 0x10 / 4, by omega⟩)
  else none

/-- The registers a host write is accepted by (rule R61); the others are read-only (rule R65). -/
def writable (r : Reg) : Bool :=
  match r with
  | .id => false
  | .ctrl => true
  | .status => true
  | .din _ => true
  | .dout _ => false
  | .key _ => true
  | .rk _ _ => false

/-- The offset of an address inside the window `ARADI_BASE .. ARADI_BASE + 0x3FF`; none outside it, where the
block does not decode (rule R60). -/
def windowOffset (p : Params) (addr : Nat) : Option Nat :=
  if p.base ≤ addr ∧ addr < p.base + 0x400 then some (addr - p.base) else none

/-! ### Reading a register -/

/-- The constant ID (10_state.md rule R21). -/
def idValue : Word := 0x41524144#32

/-- CTRL as it reads: the stored fields in their places, START and the reserved bits 0 (10_state.md rules R22, R27 and R28). -/
def ctrlWord (c : Ctrl) : Word := packWord false c.op { rclass := c.rclass, amt := c.amt, ie := c.ie }

/-- STATUS as it reads (10_state.md rules R28 and R29): BUSY in bit 0, DONE in bit 1, ERR in bit 2, ERRCODE in
bits 11:8 and every reserved bit 0. -/
def statusWord (t : Status) : Word :=
  0#20 ++ t.errcode ++ 0#5 ++ BitVec.ofBool t.err ++ BitVec.ofBool t.done ++ BitVec.ofBool t.busy

/-- The value a register reads as (10_state.md rules R21 to R37). -/
def readReg (r : Reg) (s : State) : Word :=
  match r with
  | .id => idValue
  | .ctrl => ctrlWord s.ctrl
  | .status => statusWord s.status
  | .din k => blockWord s.din k
  | .dout k => blockWord s.dout k
  | .key k => keyWord s.key k
  | .rk n k => blockWord s.rk[n] k

end Sys2Proof.Machine
end

