-- ==== Sys2Proof/Machine/Ops.lean ====
section
/-! DEFINITION. The shared operations the meanings are made of: raising and clearing an error, storing CTRL, accepting and completing a command, writing a register, reset. -/

namespace Sys2Proof.Machine

/-! ### Errors: the block's analogue of taking an exception and returning from one -/

/-- `raise Error(code)` (60_exceptions.md rule R224): "nothing else is saved or changed". -/
def raiseError (e : CmdError) (s : State) : State := { s with status := statusRaise e s.status }

/-- A write to STATUS (10_state.md rule R29), "the block's only analogue of trap return" (60_exceptions.md rule
R227); accepted whether or not BUSY=1. -/
def writeStatus (v : Word) (s : State) : State := { s with status := statusClear v s.status }

/-! ### Commands -/

/-- The first line of `CtrlWrite` after the busy check (30_encoding.md rule R93): the fields are stored. -/
def storeCtrl (op : BitVec 4) (f : Fields) (s : State) : State :=
  { s with ctrl := { op := op, rclass := f.rclass, amt := f.amt, ie := f.ie } }

/-- The end of `CtrlWrite` (30_encoding.md rule R93): LATCH is loaded, DONE cleared and BUSY set. -/
def accept (op : BitVec 4) (f : Fields) (s : State) : State :=
  { s with
    latch := { op := op, rclass := f.rclass, amt := f.amt, din := s.din, key := s.key }
    status := statusAccept s.status }

/-- A CTRL write with START = 0 (30_encoding.md rules R88 and R89). -/
def configure (op : BitVec 4) (f : Fields) (s : State) : State :=
  if s.status.busy then raiseError .busyWrite s else storeCtrl op f s

/-- A CTRL write with START = 1, its checks in the order of 30_encoding.md rule R89. -/
def issue (op : BitVec 4) (f : Fields) (s : State) : State :=
  if s.status.busy then raiseError .busyWrite s
  else if !opPresent s.params op then raiseError .illegalOp (storeCtrl op f s)
  else if !amtLegal op f.amt then raiseError .illegalAmt (storeCtrl op f s)
  else accept op f (storeCtrl op f s)

/-- The end of `Complete()` (30_encoding.md rule R94): BUSY falls and DONE rises. -/
def finish (s : State) : State := { s with status := statusComplete s.status }

/-- A completion that writes DOUT, all four words at once (10_state.md rule R35). -/
def finishBlock (b : Block) (s : State) : State := finish { s with dout := b }

/-- A completion that writes the round-key table, all of it at once (10_state.md rule R37). -/
def finishTable (t : RoundKeyTable) (s : State) : State := finish { s with rk := t }

/-- A completion that writes DOUT and the round-key table. -/
def finishBoth (b : Block) (t : RoundKeyTable) (s : State) : State := finish { s with dout := b, rk := t }

/-! ### The other writable registers -/

/-- A write to DINk: stored, or discarded with BUSY_WRITE (10_state.md rule R34, 60_exceptions.md rule R223). -/
def writeDin (k : Fin 4) (v : Word) (s : State) : State :=
  if s.status.busy then raiseError .busyWrite s else { s with din := setBlockWord s.din k v }

/-- A write to KEYk: stored, or discarded with BUSY_WRITE (10_state.md rule R36, 60_exceptions.md rule R223). -/
def writeKey (k : Fin 8) (v : Word) (s : State) : State :=
  if s.status.busy then raiseError .busyWrite s else { s with key := setKeyWord s.key k v }

/-! ### Replies, turns and reset -/

/-- The block answers the current access. -/
def reply (r : Reply) (s : State) : State := { s with replies := s.replies ++ [r] }

/-- `Reset()` (70_reset_and_hazards.md rule R260): every register at its value of 10_state.md rule R41, and
LATCH unspecified, which is a free value. The parameters, what the host still does and what it has been
answered are not the block's registers. -/
def resetBlock (s : State) : State :=
  { State.reset with
    params := s.params
    latch := Config.freeLatch s.draws
    draws := s.draws + 1
    agenda := s.agenda
    replies := s.replies }

end Sys2Proof.Machine
end

