-- ==== Sys2Proof/Machine/Rotate.lean ====
section
/-! DEFINITION. 40_rotate.md: rot16, rot32, and the commands ROT16 and ROT32. -/

namespace Sys2Proof.Machine

/-- `rot16(v, a)` (rule R100). -/
def rot16 (v : Half) (a : Amount 16) : Half := (v <<< a.val) ||| (v >>> (16 - a.val))

/-- `rot32(v, a)` (rule R101). -/
def rot32 (v : Word) (a : Amount 32) : Word := (v <<< a.val) ||| (v >>> (32 - a.val))

/-- The block a rotate command leaves in DOUT: the result in word 0 and zero in the others (rules R103 and R104). -/
def firstWord (v : Word) : Block := ⟨v, 0, 0, 0⟩

/-- The write that issues ROT16 (rule R103). -/
def execRot16 (f : Fields) (s : State) : Result := .next (issue (opcode .rot16) f s)

/-- The completion of ROT16 (rule R103). -/
def completeRot16 (s : State) : Result :=
  match amountOf 16 s.latch.amt with
  | some a => .next (finishBlock (firstWord ((rot16 (s.latch.din.w.extractLsb' 0 16) a).zeroExtend 32)) s)
  | none => .fault .latchedIllegalAmount

/-- The write that issues ROT32 (rule R104). -/
def execRot32 (f : Fields) (s : State) : Result := .next (issue (opcode .rot32) f s)

/-- The completion of ROT32 (rule R104). -/
def completeRot32 (s : State) : Result :=
  match amountOf 32 s.latch.amt with
  | some a => .next (finishBlock (firstWord (rot32 s.latch.din.w a)) s)
  | none => .fault .latchedIllegalAmount

end Sys2Proof.Machine
end

