-- ==== Sys2Proof/Machine/KeySchedule.lean ====
section
/-! DEFINITION. 43_keyschedule.md: M0, M1, the key schedule, and the commands M0, M1 and KEYEXP. -/

namespace Sys2Proof.Machine

/-- `M0(x, y)` (rule R160). -/
def mixM0 (x y : Word) : Word × Word :=
  (rot32 x ⟨1, by decide⟩ ^^^ y, rot32 y ⟨3, by decide⟩ ^^^ rot32 x ⟨1, by decide⟩ ^^^ y)

/-- `M1(x, y)` (rule R161). -/
def mixM1 (x y : Word) : Word × Word :=
  (rot32 x ⟨9, by decide⟩ ^^^ y, rot32 y ⟨28, by decide⟩ ^^^ rot32 x ⟨9, by decide⟩ ^^^ y)

/-- `mix(k)` (rule R162): M0, M1, M0 and M1 on the four pairs, the outputs `t0..t7` in order. -/
def mix (k : KeyState) : KeyState :=
  let p0 := mixM0 k.k0 k.k1
  let p1 := mixM1 k.k2 k.k3
  let p2 := mixM0 k.k4 k.k5
  let p3 := mixM1 k.k6 k.k7
  ⟨p0.1, p0.2, p1.1, p1.2, p2.1, p2.2, p3.1, p3.2⟩

/-- `P0` (rule R163). -/
def permP0 (t : KeyState) : KeyState := ⟨t.k0, t.k2, t.k1, t.k3, t.k4, t.k6, t.k5, t.k7⟩

/-- `P1` (rule R163). -/
def permP1 (t : KeyState) : KeyState := ⟨t.k0, t.k4, t.k2, t.k6, t.k1, t.k5, t.k3, t.k7⟩

/-- The body of the loop of rule R164: from `KS[n]` to `KS[n+1]`, the round counter `n` XORed into word 7 only. -/
def keyStep (n : Nat) (k : KeyState) : KeyState :=
  let s := if n % 2 = 0 then permP0 (mix k) else permP1 (mix k)
  { s with k7 := s.k7 ^^^ BitVec.ofNat 32 n }

/-- `KS[n]` (rule R164): `KS[0]` is the master key. -/
def keyState (key : Key) (n : Nat) : KeyState :=
  match n with
  | 0 => key
  | m + 1 => keyStep m (keyState key m)

/-- `RK[n]` (rule R165): words 0..3 of `KS[n]` for even `n`, words 4..7 for odd `n`. -/
def roundKey (key : Key) (n : Nat) : Block :=
  let k := keyState key n
  if n % 2 = 0 then ⟨k.k0, k.k1, k.k2, k.k3⟩ else ⟨k.k4, k.k5, k.k6, k.k7⟩

/-- `expand_key(K)` (rule R166). -/
@[irreducible] def expandKey (key : Key) : RoundKeyTable := Vector.ofFn fun n => roundKey key n.val

/-- `M0` or `M1` on the pairs (word 0, word 1) and (word 2, word 3) of a block (rules R169 and R170). -/
def onPairs (m : Word → Word → Word × Word) (b : Block) : Block :=
  ⟨(m b.w b.x).1, (m b.w b.x).2, (m b.y b.z).1, (m b.y b.z).2⟩

/-- The write that issues M0 (rule R169). -/
def execM0 (f : Fields) (s : State) : Result := .next (issue (opcode .m0) f s)

/-- The completion of M0 (rule R169). -/
def completeM0 (s : State) : Result := .next (finishBlock (onPairs mixM0 s.latch.din) s)

/-- The write that issues M1 (rule R170). -/
def execM1 (f : Fields) (s : State) : Result := .next (issue (opcode .m1) f s)

/-- The completion of M1 (rule R170). -/
def completeM1 (s : State) : Result := .next (finishBlock (onPairs mixM1 s.latch.din) s)

/-- The write that issues KEYEXP (rule R171). -/
def execKeyexp (f : Fields) (s : State) : Result := .next (issue (opcode .keyexp) f s)

/-- The completion of KEYEXP (rule R171): the whole table, DOUT unchanged. -/
def completeKeyexp (s : State) : Result := .next (finishTable (expandKey s.latch.key) s)

end Sys2Proof.Machine
end

