-- ==== Sys2Proof/Machine/Linear.lean ====
section
/-! DEFINITION. 42_linear.md: the linear diffusion layer, and the command LIN. -/

namespace Sys2Proof.Machine

/-- `a[j]` (rule R140). -/
def linA (j : RoundClass) : Amount 16 :=
  match j with
  | 0 => ⟨11, by decide⟩
  | 1 => ⟨10, by decide⟩
  | 2 => ⟨9, by decide⟩
  | 3 => ⟨8, by decide⟩

/-- `b[j]` (rule R140). -/
def linB (j : RoundClass) : Amount 16 :=
  match j with
  | 0 => ⟨8, by decide⟩
  | 1 => ⟨9, by decide⟩
  | 2 => ⟨4, by decide⟩
  | 3 => ⟨9, by decide⟩

/-- `c[j]` (rule R140). -/
def linC (j : RoundClass) : Amount 16 :=
  match j with
  | 0 => ⟨14, by decide⟩
  | 1 => ⟨11, by decide⟩
  | 2 => ⟨14, by decide⟩
  | 3 => ⟨7, by decide⟩

/-- `linear(j, v)` (rule R141). -/
def linear (j : RoundClass) (v : Word) : Word :=
  let u : Half := v.extractLsb' 16 16
  let l : Half := v.extractLsb' 0 16
  (u ^^^ rot16 u (linA j) ^^^ rot16 l (linC j)) ++ (l ^^^ rot16 l (linA j) ^^^ rot16 u (linB j))

/-- `lin4(j, (w, x, y, z))` (rule R144): the same class for each of the four words. -/
def lin4 (j : RoundClass) (b : Block) : Block := ⟨linear j b.w, linear j b.x, linear j b.y, linear j b.z⟩

/-- The write that issues LIN (rule R145). -/
def execLin (f : Fields) (s : State) : Result := .next (issue (opcode .lin) f s)

/-- The completion of LIN (rule R145). -/
def completeLin (s : State) : Result := .next (finishBlock (lin4 (classOf s.latch.rclass) s.latch.din) s)

end Sys2Proof.Machine
end

