-- ==== Sys2Proof/Machine/SBox.lean ====
section
/-! DEFINITION. 41_sbox.md: the S-box layer and its inverse, and the commands SBOX and SBOXINV. -/

namespace Sys2Proof.Machine

/-- `sbox` (rule R120): four statements in order, each reading what the earlier ones left. -/
def sbox (b : Block) : Block :=
  let x := b.x ^^^ (b.w &&& b.y)
  let z := b.z ^^^ (x &&& b.y)
  let y := b.y ^^^ (b.w &&& z)
  let w := b.w ^^^ (x &&& z)
  ⟨w, x, y, z⟩

/-- `sbox_inv` (rule R121): the four statements in reverse order. -/
def sboxInv (b : Block) : Block :=
  let w := b.w ^^^ (b.x &&& b.z)
  let y := b.y ^^^ (w &&& b.z)
  let z := b.z ^^^ (b.x &&& y)
  let x := b.x ^^^ (w &&& y)
  ⟨w, x, y, z⟩

/-- The write that issues SBOX (rule R124). -/
def execSbox (f : Fields) (s : State) : Result := .next (issue (opcode .sbox) f s)

/-- The completion of SBOX (rule R124). -/
def completeSbox (s : State) : Result := .next (finishBlock (sbox s.latch.din) s)

/-- The write that issues SBOXINV (rule R125). -/
def execSboxinv (f : Fields) (s : State) : Result := .next (issue (opcode .sboxinv) f s)

/-- The completion of SBOXINV (rule R125). -/
def completeSboxinv (s : State) : Result := .next (finishBlock (sboxInv s.latch.din) s)

end Sys2Proof.Machine
end

