-- ==== Sys2Proof/Machine/Cipher.lean ====
section
/-! DEFINITION. 44_cipher.md: encrypt and decrypt, and the commands ENC and DEC. -/

namespace Sys2Proof.Machine

/-- Block XOR (rule R190). -/
def xorBlock (s r : Block) : Block := ⟨s.w ^^^ r.w, s.x ^^^ r.x, s.y ^^^ r.y, s.z ^^^ r.z⟩

/-- The class of a round, `i mod 4` (42_linear.md rule R144). -/
def roundClass (i : RoundIndex) : RoundClass := ⟨i.val % 4, Nat.mod_lt _ (by decide)⟩

/-- The round key of round `i`; the table's entry 16 is the final whitening's (rule R191). -/
def tableKey (t : RoundKeyTable) (i : RoundIndex) : Block := t[i.castSucc]

/-- Encryption round `i` with round key `r` (rule R190). -/
def encRound (i : RoundIndex) (s r : Block) : Block := lin4 (roundClass i) (sbox (xorBlock s r))

/-- Decryption round `i` (rule R192): the same linear map, the inverse S-box, then the key. -/
def decRound (i : RoundIndex) (s r : Block) : Block := xorBlock (sboxInv (lin4 (roundClass i) s)) r

/-- The round indices 0..15 in order. -/
def roundIndices : List RoundIndex := [0, 1, 2, 3, 4, 5, 6, 7, 8, 9, 10, 11, 12, 13, 14, 15]

/-- `encrypt(P, K)` (rule R191): rounds 0 up to 15, then the whitening with `RK[16]`. -/
@[irreducible] def encrypt (p : Block) (k : Key) : Block :=
  let t := expandKey k
  xorBlock (roundIndices.foldl (fun s i => encRound i s (tableKey t i)) p) t[16]

/-- `decrypt(C, K)` (rule R192): the whitening, then rounds 15 down to 0. -/
@[irreducible] def decrypt (c : Block) (k : Key) : Block :=
  let t := expandKey k
  roundIndices.foldr (fun i s => decRound i s (tableKey t i)) (xorBlock c t[16])

/-- The write that issues ENC (rule R194). -/
def execEnc (f : Fields) (s : State) : Result := .next (issue (opcode .enc) f s)

/-- The completion of ENC (rule R194). -/
def completeEnc (s : State) : Result :=
  .next (finishBoth (encrypt s.latch.din s.latch.key) (expandKey s.latch.key) s)

/-- The write that issues DEC (rule R195). -/
def execDec (f : Fields) (s : State) : Result := .next (issue (opcode .dec) f s)

/-- The completion of DEC (rule R195). -/
def completeDec (s : State) : Result :=
  .next (finishBoth (decrypt s.latch.din s.latch.key) (expandKey s.latch.key) s)

end Sys2Proof.Machine
end

