-- ==== Sys2Proof/Machine/Control.lean ====
section
/-! DEFINITION. The command words that run no operation: CFG (30_encoding.md rule R88) and the reserved OPs (rule R83). -/

namespace Sys2Proof.Machine

/-- CFG (30_encoding.md rule R88). -/
def execCfg (op : BitVec 4) (f : Fields) (s : State) : Result := .next (configure op f s)

/-- START with the reserved OP 0x0 (30_encoding.md rule R83, 60_exceptions.md rule R221). -/
def execReserved0 (f : Fields) (s : State) : Result := .next (issue 0x0#4 f s)

/-- START with the reserved OP 0xB (30_encoding.md rule R83, 60_exceptions.md rule R221). -/
def execReservedB (f : Fields) (s : State) : Result := .next (issue 0xB#4 f s)

/-- START with a reserved OP 0xC-0xF (30_encoding.md rule R83, 60_exceptions.md rule R221). -/
def execReservedCF (op : BitVec 4) (f : Fields) (s : State) : Result := .next (issue op f s)

end Sys2Proof.Machine
end

