-- ==== Sys2Proof/Machine/Dispatch.lean ====
section
/-! DEFINITION. The write of a command word, one arm per instruction. -/

namespace Sys2Proof.Machine

def exec (i : Instr) (s : State) : Host.Outcome State Fault Refusal :=
  match i with
  | .enc f => Sys2Proof.Machine.execEnc f s
  | .dec f => Sys2Proof.Machine.execDec f s
  | .keyexp f => Sys2Proof.Machine.execKeyexp f s
  | .sbox f => Sys2Proof.Machine.execSbox f s
  | .sboxinv f => Sys2Proof.Machine.execSboxinv f s
  | .lin f => Sys2Proof.Machine.execLin f s
  | .rot16 f => Sys2Proof.Machine.execRot16 f s
  | .rot32 f => Sys2Proof.Machine.execRot32 f s
  | .m0 f => Sys2Proof.Machine.execM0 f s
  | .m1 f => Sys2Proof.Machine.execM1 f s
  | .cfg op f => Sys2Proof.Machine.execCfg op f s
  | .reserved0 f => Sys2Proof.Machine.execReserved0 f s
  | .reservedB f => Sys2Proof.Machine.execReservedB f s
  | .reservedCF op f => Sys2Proof.Machine.execReservedCF op f s

end Sys2Proof.Machine
end

