-- ==== Sys2Proof/Machine/Sequencer.lean ====
section
/-! DEFINITION. The sequencer's one step, `Complete()` (30_encoding.md rules R94 and R95). -/

namespace Sys2Proof.Machine

/-- `Complete()` with `Perform(LATCH)` (rules R94 and R95): the whole of it is one step. A LATCH.op that names no
command stops it: the spec's dispatch has no default arm. -/
def complete (s : State) : Result :=
  match cmdOf s.latch.op with
  | some .enc => completeEnc s
  | some .dec => completeDec s
  | some .keyexp => completeKeyexp s
  | some .sbox => completeSbox s
  | some .sboxinv => completeSboxinv s
  | some .lin => completeLin s
  | some .rot16 => completeRot16 s
  | some .rot32 => completeRot32 s
  | some .m0 => completeM0 s
  | some .m1 => completeM1 s
  | none => .fault .latchedReservedOp

/-- The sequencer's turn: its step where it is enabled, which is while BUSY=1, and nothing otherwise. -/
def sequencerTurn (s : State) : Result := if s.status.busy then complete s else .next s

end Sys2Proof.Machine
end

