-- ==== Sys2Proof/Machine/Bus.lean ====
section
/-! DEFINITION. What one turn of the schedule does: a host access (20_memory.md rules R60-R66), a completion, a reset. -/

namespace Sys2Proof.Machine

/-- A read of the window at an offset: the reply, and no other effect (rules R66 and R71). -/
def readReply (off : Nat) (size : Size) (s : State) : Reply :=
  match size, regAt off with
  | .word, some r => .read .ok (readReg r s)
  | _, _ => .read .busErr 0

/-- The register a write at an offset is accepted by; none where rule R66 answers `BUS_ERR`: the size is not 32
bits or a byte lane is left out (rule R62), the offset is misaligned (rule R63) or unmapped (rule R64), or the
register is read-only (rule R65). -/
def writeTarget (off : Nat) (size : Size) (lanes : BitVec 4) : Option Reg :=
  if size = .word ∧ lanes = 0xF#4 then (regAt off).filter writable else none

/-- The register write itself. A write to CTRL is an instruction: the value is decoded and executed. The
read-only registers never reach here (`writeTarget`). -/
def writeReg (r : Reg) (v : Word) (s : State) : Result :=
  match r with
  | .ctrl => exec (decodeWord v) s
  | .status => .next (writeStatus v s)
  | .din k => .next (writeDin k v s)
  | .key k => .next (writeKey k v s)
  | .id => .next s
  | .dout _ => .next s
  | .rk _ _ => .next s

/-- `BusAccess` of rule R66 at an offset of the window. An accepted write answers `OK`, also one that raises an
error (60_exceptions.md rule R224). -/
def accessAt (off : Nat) (a : Access) (s : State) : Result :=
  match a with
  | .read _ size => .next (reply (readReply off size s) s)
  | .write _ size lanes v =>
    match writeTarget off size lanes with
    | some r => writeReg r v (reply (.write .ok) s)
    | none => .next (reply (.write .busErr) s)

/-- The address of an access. -/
def accessAddr (a : Access) : Nat :=
  match a with
  | .read addr _ => addr
  | .write addr _ _ _ => addr

/-- The turn is an access the host makes, one that overlaps reset (70_reset_and_hazards.md rule R261) among them;
the others are the sequencer's and the environment's. -/
def isAccess (t : Turn) : Bool :=
  match t with
  | .host _ => true
  | .sequencer => false
  | .reset => false
  | .clockGate => false
  | .accessDuringReset _ => true

/-- A host access: inside the window the block handles it, outside the block does not decode it (rule R60), so
nothing changes and the block gives no answer. -/
def busAccess (a : Access) (s : State) : Result :=
  match windowOffset s.params (accessAddr a) with
  | some off => accessAt off a s
  | none => .next s

/-- The platform gates the clock: register contents survive, and only BUSY=0 allows it (60_exceptions.md rule R234). -/
def clockGateTurn (s : State) : Result := if s.status.busy then .refused .clockGatedWhileBusy else .next s

/-- One turn of the schedule. -/
def takeTurn (t : Turn) (s : State) : Result :=
  match t with
  | .host a => busAccess a s
  | .sequencer => sequencerTurn s
  | .reset => .next (resetBlock s)
  | .clockGate => clockGateTurn s
  | .accessDuringReset _ => .refused .accessOverlapsReset

end Sys2Proof.Machine
end

