-- ==== Sys2Proof/Machine/BusMaster.lean ====
section
/-! DEFINITION. The host's side of the bus: the notation of 30_encoding.md rules R90 and R91 as turns of the schedule. -/

namespace Sys2Proof.Machine

/-- `WR <reg>, <value>` (rule R90). -/
def wr (p : Params) (r : Reg) (v : Word) : Turn := .host (.write (p.base + regOffset r) .word 0xF#4 v)

/-- `RD <reg>` (rule R90). -/
def rd (p : Params) (r : Reg) : Turn := .host (.read (p.base + regOffset r) .word)

/-- `WRA <offset>, <value>` (rule R90). -/
def wra (p : Params) (off : Nat) (v : Word) : Turn := .host (.write (p.base + off) .word 0xF#4 v)

/-- `RDA <offset>` (rule R90). -/
def rda (p : Params) (off : Nat) : Turn := .host (.read (p.base + off) .word)

/-- The word of `CFG <mn>` (rule R91): `IE<<16 | n<<8 | j<<4 | OP(mn)`. -/
def cfgWord (c : Cmd) (f : Fields) : Word :=
  (BitVec.ofBool f.ie).setWidth 32 <<< 16 ||| f.amt.setWidth 32 <<< 8 ||| f.rclass.setWidth 32 <<< 4
    ||| (opcode c).setWidth 32

/-- The word of `CMD <mn>` (rule R91): the same with bit 31. -/
def cmdWord (c : Cmd) (f : Fields) : Word := 0x80000000#32 ||| cfgWord c f

/-- `CMD <mn>[, RCLASS=j][, AMT=n][, IE]` (rule R91). -/
def cmd (p : Params) (c : Cmd) (f : Fields) : Turn := wr p .ctrl (cmdWord c f)

/-- `CFG <mn>[, RCLASS=j][, AMT=n][, IE]` (rule R91). -/
def cfg (p : Params) (c : Cmd) (f : Fields) : Turn := wr p .ctrl (cfgWord c f)

/-- `CLR` (rule R91): clears DONE and ERR. -/
def clr (p : Params) : Turn := wr p .status 0x00000006#32

/-- `LDKEY k0,...,k7` (rule R91). -/
def ldKey (p : Params) (k : Key) : List Turn :=
  [wr p (.key 0) k.k0, wr p (.key 1) k.k1, wr p (.key 2) k.k2, wr p (.key 3) k.k3,
   wr p (.key 4) k.k4, wr p (.key 5) k.k5, wr p (.key 6) k.k6, wr p (.key 7) k.k7]

/-- `LDBLK w,x,y,z` (rule R91). -/
def ldBlk (p : Params) (b : Block) : List Turn :=
  [wr p (.din 0) b.w, wr p (.din 1) b.x, wr p (.din 2) b.y, wr p (.din 3) b.z]

/-- `RDBLK` (rule R91). -/
def rdBlk (p : Params) : List Turn := [rd p (.dout 0), rd p (.dout 1), rd p (.dout 2), rd p (.dout 3)]

/-- The read of `POLL` (rule R91). How often it is repeated is the host's control flow, not the block's. -/
def pollRead (p : Params) : Turn := rd p .status

/-- `POLL` goes round again on this reply: `s[0] = 1` (rule R91). -/
def pollAgain (r : Reply) : Bool :=
  match r with
  | .read _ v => v.getLsbD 0
  | .write _ => false

end Sys2Proof.Machine
end

