-- ==== Sys2Proof/Machine/Step.lean ====
section
/-! DEFINITION. One step of the machine, and how a command word comes to be the next thing it handles. -/

namespace Sys2Proof.Machine

/-- The earliest turn of the agenda is taken. When the agenda is empty the sequencer moves: a completion that is
owed is taken (the weak fairness of 30_encoding.md rule R94), and otherwise nothing changes. -/
def step (s : State) : Host.Outcome State Fault Refusal :=
  match s.agenda with
  | [] => sequencerTurn s
  | t :: rest => takeTurn t { s with agenda := rest }

/-- The state in which the host's next access writes the command word `w` (its low `nbits` bits, the others 0) to CTRL. -/
def State.withFetchWord (s : State) (nbits w : Nat) : State :=
  { s with agenda := wr s.params .ctrl (BitVec.ofNat 32 (w % 2 ^ nbits)) :: s.agenda }

end Sys2Proof.Machine
end

