-- ==== Sys2Proof/Machine/Bytes.lean ====
section
/-! DEFINITION. Blocks, keys and the round-key table as byte buffers (20_memory.md rules R67-R69). -/

namespace Sys2Proof.Machine

/-- A block as its 16 bytes (rule R67). -/
def bytesOfBlock (b : Block) : List Byte :=
  bytesOfWord b.w ++ bytesOfWord b.x ++ bytesOfWord b.y ++ bytesOfWord b.z

/-- A key as its 32 bytes (rule R67). -/
def bytesOfKey (k : Key) : List Byte :=
  bytesOfWord k.k0 ++ bytesOfWord k.k1 ++ bytesOfWord k.k2 ++ bytesOfWord k.k3
    ++ bytesOfWord k.k4 ++ bytesOfWord k.k5 ++ bytesOfWord k.k6 ++ bytesOfWord k.k7

/-- The words of a buffer, four bytes a word (rule R67); none where bytes are left over. -/
def wordsOfBytes (bytes : List Byte) : Option (List Word) :=
  match bytes with
  | [] => some []
  | b0 :: b1 :: b2 :: b3 :: rest => (wordsOfBytes rest).map (wordOfBytes b0 b1 b2 b3 :: ·)
  | _ => none

/-- The block of a 16-byte buffer (rule R67); none for any other length. -/
def blockOfBytes (bytes : List Byte) : Option Block :=
  match wordsOfBytes bytes with
  | some [w, x, y, z] => some ⟨w, x, y, z⟩
  | _ => none

/-- The key of a 32-byte buffer (rule R67); none for any other length. -/
def keyOfBytes (bytes : List Byte) : Option Key :=
  match wordsOfBytes bytes with
  | some [k0, k1, k2, k3, k4, k5, k6, k7] => some ⟨k0, k1, k2, k3, k4, k5, k6, k7⟩
  | _ => none

/-- The round-key table as its 272 bytes, round key by round key in ascending register offset (rule R69). -/
def bytesOfTable (t : RoundKeyTable) : List Byte := t.toList.flatMap bytesOfBlock

end Sys2Proof.Machine
end

