-- ==== Sys2Proof/Safety.lean ====
section
/-! DEFINITION. What counts as a good state, a final state, and a platform that keeps its obligations. -/

namespace Sys2Proof.Machine

/-- ERRCODE agrees with ERR (10_state.md rules R32 and R33): 0 when no error is recorded, 1, 2 or 3 when one is. -/
abbrev ErrcodeAgrees (t : Status) : Prop :=
  if t.err then t.errcode = 1#4 ∨ t.errcode = 2#4 ∨ t.errcode = 3#4 else t.errcode = 0#4

/-- LATCH holds a command that rule R93 of 30_encoding.md accepts: "LATCH never holds any other op" (rule R95). -/
abbrev LatchLegal (p : Params) (l : Latch) : Prop := opPresent p l.op = true ∧ amtLegal l.op l.amt = true

/-- LATCH is the copy of CTRL, DIN and KEY (10_state.md rule R38). -/
abbrev LatchIsCopy (s : State) : Prop :=
  s.latch = { op := s.ctrl.op, rclass := s.ctrl.rclass, amt := s.ctrl.amt, din := s.din, key := s.key }

/-- The invariant of the machine. The parameters are in their ranges, ERRCODE agrees with ERR, and while BUSY=1
DONE is 0 and LATCH is a legal command and still the copy of the inputs, which writes cannot change then. -/
abbrev Inv (s : State) : Prop :=
  s.params.wf ∧ ErrcodeAgrees s.status ∧
    (s.status.busy = true → s.status.done = false ∧ LatchLegal s.params s.latch ∧ LatchIsCopy s)

/-- The next turn is one the platform may take: no bus access overlaps reset (70_reset_and_hazards.md rule R261)
and the clock is gated only while BUSY=0 (60_exceptions.md rule R234). -/
abbrev PlatformKeepsRules (s : State) : Prop :=
  match s.agenda with
  | .accessDuringReset _ :: _ => False
  | .clockGate :: _ => s.status.busy = false
  | _ => True

/-- The end of a run (70_reset_and_hazards.md rule R270): the host has made its last access and BUSY=0. Turns of the
sequencer and the environment may still be scheduled; they are after the run. -/
abbrev Final (s : State) : Prop := s.agenda.any isAccess = false ∧ s.status.busy = false

end Sys2Proof.Machine
end

