-- ==== Sys2Proof/Certificates/Slice0/Obligations.lean ====
section
/-! DEFINITION. The statements for the provers, and the few words they are written with. -/

namespace Sys2Proof.Statements

open Sys2Proof.Machine

/-! ### States written out, so that each statement names every register that changes -/

/-- `s` after an accepted START of OP `op` (30_encoding.md rule R93): CTRL, LATCH, BUSY and DONE change, nothing else. -/
def started (op : BitVec 4) (f : Fields) (s : State) : State :=
  { s with
    ctrl := { op := op, rclass := f.rclass, amt := f.amt, ie := f.ie }
    latch := { op := op, rclass := f.rclass, amt := f.amt, din := s.din, key := s.key }
    status := { busy := true, done := false, err := s.status.err, errcode := s.status.errcode } }

/-- `s` after a START refused with `code` (30_encoding.md rule R93, 60_exceptions.md rule R224): the fields are
stored, ERR and ERRCODE written, nothing else changes. -/
def turnedAway (code : BitVec 4) (op : BitVec 4) (f : Fields) (s : State) : State :=
  { s with
    ctrl := { op := op, rclass := f.rclass, amt := f.amt, ie := f.ie }
    status := { busy := s.status.busy, done := s.status.done, err := true, errcode := code } }

/-- `s` after a write discarded with BUSY_WRITE (60_exceptions.md rule R223): ERR and ERRCODE change, nothing else. -/
def discarded (s : State) : State :=
  { s with status := { busy := s.status.busy, done := s.status.done, err := true, errcode := 3#4 } }

/-- `s` after a completion that leaves DOUT at `dout` and the round-key table at `rk` (30_encoding.md rule R94). -/
def completed (dout : Block) (rk : RoundKeyTable) (s : State) : State :=
  { s with
    dout := dout
    rk := rk
    status := { busy := false, done := true, err := s.status.err, errcode := s.status.errcode } }

/-- The command latched when `f` is issued as OP `op` in `s`. -/
def latched (op : BitVec 4) (f : Fields) (s : State) : Latch :=
  { op := op, rclass := f.rclass, amt := f.amt, din := s.din, key := s.key }

/-- `i`, issued while idle, is accepted as OP `op`; and whenever the sequencer moves with that command in flight,
whatever else has happened to the state meanwhile, DOUT becomes `dout u` and the table `rk u`. -/
def RunsAs (i : Instr) (op : BitVec 4) (f : Fields) (s : State)
    (dout : State → Block) (rk : State → RoundKeyTable) : Prop :=
  exec i s = .next (started op f s) ∧
    ∀ u : State, u.status.busy = true → u.latch = latched op f s →
      takeTurn .sequencer u = .next (completed (dout u) (rk u) u)

/-- Bit `i` of the four words of a block as the nibble `8·w + 4·x + 2·y + z` (41_sbox.md rule R122). -/
def lane (b : Block) (i : Nat) : Nat :=
  8 * (b.w.getLsbD i).toNat + 4 * (b.x.getLsbD i).toNat + 2 * (b.y.getLsbD i).toNat + (b.z.getLsbD i).toNat

/-- Row S(n) of the table of rule R122. -/
def sboxLanes : List Nat := [0x0, 0x1, 0x2, 0x3, 0x4, 0xD, 0xF, 0x6, 0x8, 0xB, 0x5, 0xE, 0xC, 0x7, 0xA, 0x9]

/-- Row S⁻¹(n) of the table of rule R122. -/
def sboxInvLanes : List Nat := [0x0, 0x1, 0x2, 0x3, 0x4, 0xA, 0x7, 0xD, 0x8, 0xF, 0xE, 0x9, 0xC, 0x5, 0xB, 0x6]

/-- The turn is a host access. -/
def IsHost (t : Turn) : Prop := ∃ a, t = .host a

/-- The turn is one of those that reach the block: a host access, the sequencer or a reset. -/
def IsOrdinary (t : Turn) : Prop := (∃ a, t = .host a) ∨ t = .sequencer ∨ t = .reset

/-- The next turn is an accepted bus write of `v` to register `r`: aligned, 32 bits, all lanes. -/
def NextWrites (s : State) (r : Reg) (v : Word) : Prop := ∃ rest, s.agenda = wr s.params r v :: rest

/-- The sequencer moves next: it has the next turn, or the agenda is empty (the schedule's form is the model's, log 5). -/
def SequencerNext (s : State) : Prop := s.agenda = [] ∨ ∃ rest, s.agenda = .sequencer :: rest

/-- Reset comes next. -/
def ResetNext (s : State) : Prop := ∃ rest, s.agenda = .reset :: rest

/-- The word `v` would be accepted as a command (30_encoding.md rule R93): START is 1, the OP is one of those the
block has, and AMT is legal for ROT16 and ROT32. -/
def Acceptable (p : Params) (v : Word) : Prop :=
  v.getLsbD 31 = true ∧
    (1 ≤ (v.extractLsb' 0 4).toNat ∧ (v.extractLsb' 0 4).toNat ≤ 3 ∨
      p.hasPrimOps = true ∧ 4 ≤ (v.extractLsb' 0 4).toNat ∧ (v.extractLsb' 0 4).toNat ≤ 10) ∧
    (v.extractLsb' 0 4 = 7#4 → 1 ≤ (v.extractLsb' 8 5).toNat ∧ (v.extractLsb' 8 5).toNat ≤ 15) ∧
    (v.extractLsb' 0 4 = 8#4 → 1 ≤ (v.extractLsb' 8 5).toNat)

/-- `CtrlWrite(v)` transcribed from 30_encoding.md rule R93 on the bits of `v` (it does not use the decoder). -/
def ctrlWritePseudocode (v : Word) (s : State) : State :=
  let op : BitVec 4 := v.extractLsb' 0 4
  let f : Fields := { rclass := v.extractLsb' 4 2, amt := v.extractLsb' 8 5, ie := v.getLsbD 16 }
  if s.status.busy then discarded s
  else if v.getLsbD 31 = false then { s with ctrl := { op := op, rclass := f.rclass, amt := f.amt, ie := f.ie } }
  else if ¬ ((1 ≤ op.toNat ∧ op.toNat ≤ 3) ∨ (s.params.hasPrimOps = true ∧ 4 ≤ op.toNat ∧ op.toNat ≤ 10)) then
    turnedAway 1#4 op f s
  else if op = 7#4 ∧ ¬ (1 ≤ f.amt.toNat ∧ f.amt.toNat ≤ 15) then turnedAway 2#4 op f s
  else if op = 8#4 ∧ ¬ (1 ≤ f.amt.toNat ∧ f.amt.toNat ≤ 31) then turnedAway 2#4 op f s
  else started op f s

/-- One encryption round with class `j` and round key `r` (44_cipher.md rule R190), word by word. -/
def encRoundOf (j : RoundClass) (s r : Block) : Block :=
  let v := sbox ⟨s.w ^^^ r.w, s.x ^^^ r.x, s.y ^^^ r.y, s.z ^^^ r.z⟩
  ⟨linear j v.w, linear j v.x, linear j v.y, linear j v.z⟩

/-- One decryption round with class `j` and round key `r` (44_cipher.md rule R192), word by word. -/
def decRoundOf (j : RoundClass) (s r : Block) : Block :=
  let v := sboxInv ⟨linear j s.w, linear j s.x, linear j s.y, linear j s.z⟩
  ⟨v.w ^^^ r.w, v.x ^^^ r.x, v.y ^^^ r.y, v.z ^^^ r.z⟩

/-- `encrypt(P, K)` of 44_cipher.md rule R191 with its 16 rounds written out, on the round-key table `t`. -/
def encryptRounds (p : Block) (t : RoundKeyTable) : Block :=
  let s := encRoundOf 3 (encRoundOf 2 (encRoundOf 1 (encRoundOf 0 p t[0]) t[1]) t[2]) t[3]
  let s := encRoundOf 3 (encRoundOf 2 (encRoundOf 1 (encRoundOf 0 s t[4]) t[5]) t[6]) t[7]
  let s := encRoundOf 3 (encRoundOf 2 (encRoundOf 1 (encRoundOf 0 s t[8]) t[9]) t[10]) t[11]
  let s := encRoundOf 3 (encRoundOf 2 (encRoundOf 1 (encRoundOf 0 s t[12]) t[13]) t[14]) t[15]
  ⟨s.w ^^^ t[16].w, s.x ^^^ t[16].x, s.y ^^^ t[16].y, s.z ^^^ t[16].z⟩

/-- `decrypt(C, K)` of 44_cipher.md rule R192 with its 16 rounds written out, on the round-key table `t`. -/
def decryptRounds (c : Block) (t : RoundKeyTable) : Block :=
  let s : Block := ⟨c.w ^^^ t[16].w, c.x ^^^ t[16].x, c.y ^^^ t[16].y, c.z ^^^ t[16].z⟩
  let s := decRoundOf 0 (decRoundOf 1 (decRoundOf 2 (decRoundOf 3 s t[15]) t[14]) t[13]) t[12]
  let s := decRoundOf 0 (decRoundOf 1 (decRoundOf 2 (decRoundOf 3 s t[11]) t[10]) t[9]) t[8]
  let s := decRoundOf 0 (decRoundOf 1 (decRoundOf 2 (decRoundOf 3 s t[7]) t[6]) t[5]) t[4]
  decRoundOf 0 (decRoundOf 1 (decRoundOf 2 (decRoundOf 3 s t[3]) t[2]) t[1]) t[0]

/-- `linear` by halves (42_linear.md rule R141), for the rotate amounts `a`, `b` and `c`. -/
def linearByHalves (a b c : Nat) (v : Word) : Word :=
  let u : Half := v.extractLsb' 16 16
  let l : Half := v.extractLsb' 0 16
  (u ^^^ u.rotateLeft a ^^^ l.rotateLeft c) ++ (l ^^^ l.rotateLeft a ^^^ u.rotateLeft b)

/-- `s` with other latencies, which no rule depends on (70_reset_and_hazards.md rule R268). -/
def withLatencies (e d k p : Nat) (s : State) : State :=
  { s with params := { s.params with latEnc := e, latDec := d, latKeyexp := k, latPrim := p } }

end Sys2Proof.Statements

open Sys2Proof Sys2Proof.Machine Sys2Proof.Statements

/-! ### The command word -/

/-- Decoding the encoding of a well-formed instruction gives it back, every operand at every value. -/
def Obligations.DecodeUndoesEncode : Prop :=
  ∀ i : Instr, i.wellFormed = true → decodeWord (encode i) = i

/-- 30_encoding.md rule R87: the reserved bits of the command word are ignored, and no other bit is. -/
def Obligations.ReservedBitsAreIgnored : Prop :=
  ∀ v : Word, decodeWord v = decodeWord (v &&& 0x80011F3F#32) ∧ encode (decodeWord v) = v &&& 0x80011F3F#32

/-- Every word belongs to exactly one row of spec/opcode_table.json, the row of the instruction it decodes to
(30_encoding.md rule R92, which the spec marks derived). -/
def Obligations.EveryWordHasExactlyOneRow : Prop :=
  ∀ v : Word, opcodeTable.filter (fun r => r.holds v) = [(decodeWord v).row]

/-- The words of `CMD` and `CFG` (30_encoding.md rule R91) are the encodings of the instructions they name. -/
def Obligations.CmdAndCfgWordsDecode : Prop :=
  ∀ (c : Cmd) (f : Fields),
    decodeWord (cmdWord c f) = c.instr f ∧ decodeWord (cfgWord c f) = .cfg (opcode c) f

/-- Command words the spec writes out decode to the command it names. -/
def Obligations.WrittenOutWordsDecode : Prop :=
  decodeWord 0x80000001#32 = .enc ⟨0, 0, false⟩ ∧
  decodeWord 0x80010002#32 = .dec ⟨0, 0, true⟩ ∧
  decodeWord 0x80000036#32 = .lin ⟨3, 0, false⟩ ∧
  decodeWord 0x80001C08#32 = .rot32 ⟨0, 28, false⟩ ∧
  decodeWord 0x80011007#32 = .rot16 ⟨0, 16, true⟩ ∧
  decodeWord 0x8001000A#32 = .m1 ⟨0, 0, true⟩ ∧
  decodeWord 0x00010006#32 = .cfg 6 ⟨0, 0, true⟩ ∧
  decodeWord 0x8000100F#32 = .reservedCF 15 ⟨0, 16, false⟩

/-- The byte decoder reads exactly the strings of four bytes, as the little-endian word they hold (the byte order of a
command word is the model's choice, log 11). -/
def Obligations.ByteDecoderReadsOneWord : Prop :=
  (∀ v : Word, decodeBytes (bytesOfWord v) = .ok (decodeWord v)) ∧
  ∀ bytes : List Byte, bytes.length ≠ 4 → decodeBytes bytes = .error (.notOneWord bytes.length)

/-! ### Byte order -/

/-- 20_memory.md rule R67: blocks and keys are little-endian word by word. -/
def Obligations.BlocksAndKeysAreLittleEndian : Prop :=
  (∀ b0 b1 b2 b3 : Byte, wordOfBytes b0 b1 b2 b3 =
    b0.setWidth 32 ||| b1.setWidth 32 <<< 8 ||| b2.setWidth 32 <<< 16 ||| b3.setWidth 32 <<< 24) ∧
  (∀ b : Block, blockOfBytes (bytesOfBlock b) = some b ∧ (bytesOfBlock b).length = 16 ∧
    ∀ (k m : Fin 4), (bytesOfBlock b)[4 * k.val + m.val]? = some ((blockWord b k).extractLsb' (8 * m.val) 8)) ∧
  (∀ b : Key, keyOfBytes (bytesOfKey b) = some b ∧ (bytesOfKey b).length = 32 ∧
    ∀ (k : Fin 8) (m : Fin 4), (bytesOfKey b)[4 * k.val + m.val]? = some ((keyWord b k).extractLsb' (8 * m.val) 8)) ∧
  keyOfBytes ((List.range 32).map (BitVec.ofNat 8)) =
    some ⟨0x03020100, 0x07060504, 0x0b0a0908, 0x0f0e0d0c, 0x13121110, 0x17161514, 0x1b1a1918, 0x1f1e1d1c⟩

/-- 20_memory.md rule R69: the table serialises round key by round key, word by word, each word little-endian. -/
def Obligations.RoundKeyTableByteOrder : Prop :=
  ∀ t : RoundKeyTable, (bytesOfTable t).length = 272 ∧
    ∀ (r : Fin 17) (k m : Fin 4),
      (bytesOfTable t)[16 * r.val + 4 * k.val + m.val]? = some ((blockWord t[r] k).extractLsb' (8 * m.val) 8)

/-! ### The transform functions -/

/-- 40_rotate.md rules R100 and R101: the bit at position `i` moves to position `(i + a) mod N`. -/
def Obligations.RotatesMoveEachBit : Prop :=
  (∀ (v : Half) (a : Amount 16) (i : Nat), i < 16 → (rot16 v a).getLsbD ((i + a.val) % 16) = v.getLsbD i) ∧
  (∀ (v : Word) (a : Amount 32) (i : Nat), i < 32 → (rot32 v a).getLsbD ((i + a.val) % 32) = v.getLsbD i)

/-- 40_rotate.md rule R102: the law `rotateN(rotateN(v, a), N - a) = v`, and no amount outside the contract. -/
def Obligations.RotateByTheRestUndoes : Prop :=
  (∀ (v : Half) (a b : Amount 16), b.val = 16 - a.val → rot16 (rot16 v a) b = v) ∧
  (∀ (v : Word) (a b : Amount 32), b.val = 32 - a.val → rot32 (rot32 v a) b = v) ∧
  (∀ (n : Nat) (amt : BitVec 5), amountOf n amt = none ↔ ¬ (0 < amt.toNat ∧ amt.toNat < n))

/-- 41_sbox.md rule R122 (the spec marks it derived): the same 4-bit map in each of the 32 lanes, for both functions,
as the table gives it. -/
def Obligations.SboxLanesFollowTheTable : Prop :=
  ∀ (b : Block) (i : Nat), i < 32 →
    sboxLanes[lane b i]? = some (lane (sbox b) i) ∧ sboxInvLanes[lane b i]? = some (lane (sboxInv b) i)

/-- 41_sbox.md rule R123 (the spec marks it derived): the inverse law, both ways, for every block. -/
def Obligations.SboxInverseLaw : Prop :=
  ∀ b : Block, sboxInv (sbox b) = b ∧ sbox (sboxInv b) = b

/-- 41_sbox.md rule R126 (the spec marks it derived): the blocks `sbox` fixes are those whose every lane is one of 0,
1, 2, 3, 4, 8, C; it is no involution, and it is not `sbox_inv`. -/
def Obligations.SboxFixedPointsAndNoInvolution : Prop :=
  (∀ b : Block, sbox b = b ↔ ∀ i < 32, lane b i ∈ [0x0, 0x1, 0x2, 0x3, 0x4, 0x8, 0xC]) ∧
  (∀ (b : Block) (i : Nat), i < 32 → lane b i = 0x5 → lane (sbox b) i = 0xD ∧ lane (sbox (sbox b)) i = 0x7) ∧
  sbox ≠ sboxInv

/-- 42_linear.md rule R142 (the spec marks it derived): `linear(j, ·)` is linear over XOR, and its value at any word is the XOR of its values at
the unit vectors of the word's set bits, so these 32 values determine it. The map itself is that of rules R140 and
R141, by halves, with the amounts of each class as numbers. -/
def Obligations.LinearIsXorLinear : Prop :=
  (∀ j : RoundClass, linear j 0 = 0 ∧ (∀ p q : Word, linear j (p ^^^ q) = linear j p ^^^ linear j q) ∧
    ∀ v : Word, linear j v =
      (List.range 32).foldl (fun acc k => if v.getLsbD k then acc ^^^ linear j (1#32 <<< k) else acc) 0) ∧
  (∀ v : Word, linear 0 v = linearByHalves 11 8 14 v ∧ linear 1 v = linearByHalves 10 9 11 v ∧
    linear 2 v = linearByHalves 9 4 14 v ∧ linear 3 v = linearByHalves 8 9 7 v)

/-- 42_linear.md rule R143 (the spec marks it derived): `linear(j, linear(j, v)) = v`. -/
def Obligations.LinearIsAnInvolution : Prop :=
  ∀ (j : RoundClass) (v : Word), linear j (linear j v) = v

/-- 43_keyschedule.md rule R168 (the spec marks it derived): the schedule in its two-states-per-iteration form, the counters as corrected. -/
def Obligations.KeyStatesTwoPerIteration : Prop :=
  ∀ (key : Key) (i : Nat), i % 2 = 1 → i ≤ 15 →
    keyState key i =
      { permP0 (mix (keyState key (i - 1))) with
        k7 := (permP0 (mix (keyState key (i - 1)))).k7 ^^^ BitVec.ofNat 32 (i - 1) } ∧
    keyState key (i + 1) =
      { permP1 (mix (keyState key i)) with
        k7 := (permP1 (mix (keyState key i))).k7 ^^^ BitVec.ofNat 32 i }

/-- 43_keyschedule.md rule R165 (the spec marks it derived): even entries are the low half of their key state, odd ones the high half; entry 0
is the first four words of the master key. -/
def Obligations.RoundKeysAreAlternateHalves : Prop :=
  ∀ (key : Key) (n : Fin 17),
    (n.val % 2 = 0 → (expandKey key)[n] =
      ⟨(keyState key n).k0, (keyState key n).k1, (keyState key n).k2, (keyState key n).k3⟩) ∧
    (n.val % 2 = 1 → (expandKey key)[n] =
      ⟨(keyState key n).k4, (keyState key n).k5, (keyState key n).k6, (keyState key n).k7⟩) ∧
    (expandKey key)[0] = ⟨key.k0, key.k1, key.k2, key.k3⟩

/-- 43_keyschedule.md rule R167 (the spec marks it derived): "the table depends on all 256 key bits": two keys with one table are equal. -/
def Obligations.RoundKeyTableDeterminesTheKey : Prop :=
  ∀ k k' : Key, expandKey k = expandKey k' → k = k'

/-- 44_cipher.md rule R193 (the spec marks it derived): decryption undoes encryption and encryption undoes decryption, for every block and key. -/
def Obligations.DecryptAndEncryptAreInverse : Prop :=
  ∀ (b : Block) (k : Key), decrypt (encrypt b k) k = b ∧ encrypt (decrypt b k) k = b

/-! ### Reset -/

/-- 10_state.md rule R41: after reset every register but ID reads 0 and `irq` is 0; the table is zero, which is not
`expand_key` of the zero key. (LATCH is unspecified there: nothing is said of it.) -/
def Obligations.ResetStateReadsAsSpecified : Prop :=
  (∀ r : Reg, readReg r State.reset = if r = .id then 0x41524144#32 else 0#32) ∧ irq State.reset = false ∧
    State.reset.rk ≠ expandKey ⟨0, 0, 0, 0, 0, 0, 0, 0⟩

/-- 70_reset_and_hazards.md rules R260 and R261: a reset turn, at any time, sets every register to its reset value
and drops the command in flight; LATCH may hold anything then. That the parameters, the turns still to come and the
replies given survive a reset is the model's choice (log 2, 5 and 7). -/
def Obligations.ResetTurnClearsTheBlock : Prop :=
  ∀ (s : State) (rest : List Turn), s.agenda = .reset :: rest →
    ∃ t, step s = .next t ∧ t.ctrl = ⟨0, 0, 0, false⟩ ∧ t.status = ⟨false, false, false, 0⟩ ∧
      t.din = ⟨0, 0, 0, 0⟩ ∧ t.dout = ⟨0, 0, 0, 0⟩ ∧ t.key = ⟨0, 0, 0, 0, 0, 0, 0, 0⟩ ∧
      (∀ r : Fin 17, t.rk[r] = ⟨0, 0, 0, 0⟩) ∧ irq t = false ∧
      t.params = s.params ∧ t.agenda = rest ∧ t.replies = s.replies

/-! ### Invariant and progress -/

/-- The invariant holds right after reset (the reset parameters and LATCH are the model's: log 2 and 3). -/
def Obligations.ResetMeetsInvariant : Prop := Inv State.reset

/-- Every step keeps the invariant. -/
def Obligations.StepKeepsInvariant : Prop :=
  ∀ s t : State, Inv s → step s = .next t → Inv t

/-- From a state that meets the invariant, with a platform that keeps its rules, every step answers a next state:
the block never stops, and an accepted command completes. -/
def Obligations.InvariantStepAnswersNext : Prop :=
  ∀ s : State, Inv s → PlatformKeepsRules s → ∃ t, step s = .next t

/-- From a state that meets the invariant, the host's accesses, the resets and the owed completion all come to an
end: after one step more than the agenda is long, nothing is left to do and BUSY=0 (that the sequencer has the turn when
the agenda is empty is the model's form of weak fairness, log 5). So within that many steps there is a first final
state, 70_reset_and_hazards.md rule R270's end of the run; and every state after a final one is final too, where only a
reset, which the environment may still make, changes a register. -/
def Obligations.RunReachesFinalState : Prop :=
  (∀ s : State, Inv s → (∀ t ∈ s.agenda, IsOrdinary t) →
    (∃ t, Sys2Proof.core.run (s.agenda.length + 1) s = .next t ∧ t.agenda = [] ∧ Final t) ∧
    (∃ n ≤ s.agenda.length + 1, (∃ t, Sys2Proof.core.run n s = .next t ∧ Final t) ∧
      ∀ m < n, ∃ u, Sys2Proof.core.run m s = .next u ∧ ¬ Final u)) ∧
  (∀ s t : State, Final s → step s = .next t → Final t ∧
    (¬ ResetNext s → t = { s with agenda := s.agenda.tail }))

/-! ### A step -/

/-- A step takes the next turn; a host's write of a word to CTRL is the execution of the instruction the word
decodes to, the reply `OK` recorded and nothing else done around it; an empty agenda is the sequencer's turn. (The
agenda and the list of replies are the model's, log 5 and 7.) -/
def Obligations.StepRunsTheDecodedCommand : Prop :=
  (∀ (s : State) (v : Word) (rest : List Turn), s.agenda = wr s.params .ctrl v :: rest →
    step s = exec (decodeWord v) { s with agenda := rest, replies := s.replies ++ [.write .ok] }) ∧
  (∀ (s : State) (i : Instr) (rest : List Turn), i.wellFormed = true →
    s.agenda = wr s.params .ctrl (encode i) :: rest →
    step s = exec i { s with agenda := rest, replies := s.replies ++ [.write .ok] }) ∧
  (∀ (s : State) (t : Turn) (rest : List Turn), s.agenda = t :: rest →
    step s = takeTurn t { s with agenda := rest }) ∧
  (∀ s : State, s.agenda = [] → step s = takeTurn .sequencer s)

/-- 30_encoding.md rule R93: executing the instruction a word decodes to is `CtrlWrite` of that word; on the bus the
response is `OK` whether the command is accepted, refused or only stored. -/
def Obligations.CommandWriteFollowsPseudocode : Prop :=
  (∀ (v : Word) (s : State), exec (decodeWord v) s = .next (ctrlWritePseudocode v s)) ∧
  ∀ (s : State) (v : Word) (rest : List Turn), s.agenda = wr s.params .ctrl v :: rest →
    step s = .next { ctrlWritePseudocode v s with agenda := rest, replies := s.replies ++ [.write .ok] }

/-- 10_state.md rule R22: a CTRL write stores its fields also when the command is then refused, reads back with
START and the reserved bits 0, and stores nothing while BUSY=1. -/
def Obligations.CtrlStoresItsFields : Prop :=
  ∀ (v : Word) (s : State), ∃ t, exec (decodeWord v) s = .next t ∧
    (s.status.busy = false →
      t.ctrl = ⟨v.extractLsb' 0 4, v.extractLsb' 4 2, v.extractLsb' 8 5, v.getLsbD 16⟩ ∧
      readReg .ctrl t = v &&& 0x00011F3F#32) ∧
    (s.status.busy = true → t.ctrl = s.ctrl)

/-! ### The commands: accepted while idle, and what their completion does -/

/-- ENC and DEC: accepted whatever `HAS_PRIM_OPS` is; the completion writes DOUT and the whole table from the DIN
and KEY of the START. `encrypt` and `decrypt` are the 16 rounds and the whitening of 44_cipher.md rules R191 and R192,
written out, and give the known answer of 95_test_vectors.md V-KAT in both directions. -/
def Obligations.EncAndDecRun : Prop :=
  (∀ (f : Fields) (s : State), s.status.busy = false →
    RunsAs (.enc f) 0x1#4 f s (fun _ => encrypt s.din s.key) (fun _ => expandKey s.key) ∧
    RunsAs (.dec f) 0x2#4 f s (fun _ => decrypt s.din s.key) (fun _ => expandKey s.key)) ∧
  (∀ (b : Block) (k : Key),
    encrypt b k = encryptRounds b (expandKey k) ∧ decrypt b k = decryptRounds b (expandKey k)) ∧
  encrypt ⟨0, 0, 0, 0⟩
      ⟨0x03020100, 0x07060504, 0x0b0a0908, 0x0f0e0d0c, 0x13121110, 0x17161514, 0x1b1a1918, 0x1f1e1d1c⟩ =
    ⟨0x3f09abf4, 0x00e3bd74, 0x03260def, 0xb7c53912⟩ ∧
  decrypt ⟨0x3f09abf4, 0x00e3bd74, 0x03260def, 0xb7c53912⟩
      ⟨0x03020100, 0x07060504, 0x0b0a0908, 0x0f0e0d0c, 0x13121110, 0x17161514, 0x1b1a1918, 0x1f1e1d1c⟩ =
    ⟨0, 0, 0, 0⟩

/-- KEYEXP: accepted whatever `HAS_PRIM_OPS` is; the completion writes the whole table, DOUT unchanged. -/
def Obligations.KeyexpRuns : Prop :=
  ∀ (f : Fields) (s : State), s.status.busy = false →
    RunsAs (.keyexp f) 0x3#4 f s (fun u => u.dout) (fun _ => expandKey s.key)

/-- SBOX and SBOXINV: the completion writes DOUT, the table unchanged. -/
def Obligations.SboxAndSboxinvRun : Prop :=
  ∀ (f : Fields) (s : State), s.status.busy = false → s.params.hasPrimOps = true →
    RunsAs (.sbox f) 0x4#4 f s (fun _ => sbox s.din) (fun u => u.rk) ∧
    RunsAs (.sboxinv f) 0x5#4 f s (fun _ => sboxInv s.din) (fun u => u.rk)

/-- LIN: the completion writes the linear layer of class RCLASS of the four words to DOUT. -/
def Obligations.LinRuns : Prop :=
  ∀ (f : Fields) (s : State) (j : RoundClass), s.status.busy = false → s.params.hasPrimOps = true →
    j.val = f.rclass.toNat →
    RunsAs (.lin f) 0x6#4 f s
      (fun _ => ⟨linear j s.din.w, linear j s.din.x, linear j s.din.y, linear j s.din.z⟩) (fun u => u.rk)

/-- ROT16: for AMT in 1..15 the completion writes the rotated low half of DIN0, zero-extended, and zeros. -/
def Obligations.RotSixteenRuns : Prop :=
  ∀ (f : Fields) (s : State) (a : Amount 16), s.status.busy = false → s.params.hasPrimOps = true →
    a.val = f.amt.toNat →
    RunsAs (.rot16 f) 0x7#4 f s
      (fun _ => ⟨(rot16 (s.din.w.extractLsb' 0 16) a).setWidth 32, 0, 0, 0⟩) (fun u => u.rk)

/-- ROT32: for AMT in 1..31 the completion writes the rotated DIN0 and zeros. -/
def Obligations.RotThirtyTwoRuns : Prop :=
  ∀ (f : Fields) (s : State) (a : Amount 32), s.status.busy = false → s.params.hasPrimOps = true →
    a.val = f.amt.toNat →
    RunsAs (.rot32 f) 0x8#4 f s (fun _ => ⟨rot32 s.din.w a, 0, 0, 0⟩) (fun u => u.rk)

/-- M0 and M1: the completion writes the mixer of the pairs (DIN0, DIN1) and (DIN2, DIN3), with rotations by 1
and 3, and by 9 and 28 (43_keyschedule.md rules R160 and R161). -/
def Obligations.MixersRun : Prop :=
  ∀ (f : Fields) (s : State), s.status.busy = false → s.params.hasPrimOps = true →
    RunsAs (.m0 f) 0x9#4 f s
      (fun _ => ⟨s.din.w.rotateLeft 1 ^^^ s.din.x, s.din.x.rotateLeft 3 ^^^ (s.din.w.rotateLeft 1 ^^^ s.din.x),
        s.din.y.rotateLeft 1 ^^^ s.din.z, s.din.z.rotateLeft 3 ^^^ (s.din.y.rotateLeft 1 ^^^ s.din.z)⟩)
      (fun u => u.rk) ∧
    RunsAs (.m1 f) 0xA#4 f s
      (fun _ => ⟨s.din.w.rotateLeft 9 ^^^ s.din.x, s.din.x.rotateLeft 28 ^^^ (s.din.w.rotateLeft 9 ^^^ s.din.x),
        s.din.y.rotateLeft 9 ^^^ s.din.z, s.din.z.rotateLeft 28 ^^^ (s.din.y.rotateLeft 9 ^^^ s.din.z)⟩)
      (fun u => u.rk)

/-- 30_encoding.md rule R88: a word with bit 31 = 0 is CFG, whatever its OP; it stores the fields and does nothing
else (`irq` follows IE at once); while BUSY=1 it is discarded with BUSY_WRITE. -/
def Obligations.CfgStoresAndDoesNothingElse : Prop :=
  (∀ v : Word, v.getLsbD 31 = false →
    decodeWord v = .cfg (v.extractLsb' 0 4) ⟨v.extractLsb' 4 2, v.extractLsb' 8 5, v.getLsbD 16⟩) ∧
  (∀ (op : BitVec 4) (f : Fields) (s : State),
    (s.status.busy = false → exec (.cfg op f) s = .next { s with ctrl := ⟨op, f.rclass, f.amt, f.ie⟩ } ∧
      irq { s with ctrl := ⟨op, f.rclass, f.amt, f.ie⟩ } = (f.ie && (s.status.done || s.status.err))) ∧
    (s.status.busy = true → exec (.cfg op f) s = .next (discarded s))) ∧
  (∀ s : State, s.status.busy = false → ∃ t, exec (decodeWord 0x00010006#32) s = .next t ∧
    readReg .ctrl t = 0x00010006#32 ∧ t.status = s.status)

/-- 60_exceptions.md rule R221: while BUSY=0, START with a reserved OP, or with a primitive OP the block lacks, stores
the fields and records ILLEGAL_OP: by instruction, and by the word written, whose reply is `OK`. -/
def Obligations.IllegalOpIsRecorded : Prop :=
  (∀ (f : Fields) (s : State), s.status.busy = false →
    exec (.reserved0 f) s = .next (turnedAway 1#4 0x0#4 f s) ∧
    exec (.reservedB f) s = .next (turnedAway 1#4 0xB#4 f s) ∧
    (∀ op : BitVec 4, 12 ≤ op.toNat → exec (.reservedCF op f) s = .next (turnedAway 1#4 op f s)) ∧
    (s.params.hasPrimOps = false →
      exec (.sbox f) s = .next (turnedAway 1#4 0x4#4 f s) ∧
      exec (.sboxinv f) s = .next (turnedAway 1#4 0x5#4 f s) ∧
      exec (.lin f) s = .next (turnedAway 1#4 0x6#4 f s) ∧
      exec (.rot16 f) s = .next (turnedAway 1#4 0x7#4 f s) ∧
      exec (.rot32 f) s = .next (turnedAway 1#4 0x8#4 f s) ∧
      exec (.m0 f) s = .next (turnedAway 1#4 0x9#4 f s) ∧
      exec (.m1 f) s = .next (turnedAway 1#4 0xA#4 f s))) ∧
  (∀ (s : State) (v : Word) (rest : List Turn), s.status.busy = false → s.agenda = wr s.params .ctrl v :: rest →
    v.getLsbD 31 = true →
    (v.extractLsb' 0 4 = 0#4 ∨ 11 ≤ (v.extractLsb' 0 4).toNat ∨
      (s.params.hasPrimOps = false ∧ 4 ≤ (v.extractLsb' 0 4).toNat ∧ (v.extractLsb' 0 4).toNat ≤ 10)) →
    step s = .next (turnedAway 1#4 (v.extractLsb' 0 4) ⟨v.extractLsb' 4 2, v.extractLsb' 8 5, v.getLsbD 16⟩
      { s with agenda := rest, replies := s.replies ++ [.write .ok] })) ∧
  (∀ s : State, readReg .status s = 0#32 → ∃ t, exec (decodeWord 0x8000000B#32) s = .next t ∧
    readReg .ctrl t = 0x0000000B#32 ∧ readReg .status t = 0x00000104#32)

/-- 60_exceptions.md rule R222: while BUSY=0 and where the OP is legal, ROT16 with AMT outside 1..15 and ROT32 with
AMT 0 store the fields and record ILLEGAL_AMT: by instruction, and by the word written, whose reply is `OK`. -/
def Obligations.IllegalAmountIsRecorded : Prop :=
  (∀ (f : Fields) (s : State), s.status.busy = false → s.params.hasPrimOps = true →
    (¬ (1 ≤ f.amt.toNat ∧ f.amt.toNat ≤ 15) → exec (.rot16 f) s = .next (turnedAway 2#4 0x7#4 f s)) ∧
    (f.amt = 0#5 → exec (.rot32 f) s = .next (turnedAway 2#4 0x8#4 f s))) ∧
  (∀ (s : State) (v : Word) (rest : List Turn), s.status.busy = false → s.params.hasPrimOps = true →
    s.agenda = wr s.params .ctrl v :: rest → v.getLsbD 31 = true →
    ((v.extractLsb' 0 4 = 7#4 ∧ ¬ (1 ≤ (v.extractLsb' 8 5).toNat ∧ (v.extractLsb' 8 5).toNat ≤ 15)) ∨
      (v.extractLsb' 0 4 = 8#4 ∧ v.extractLsb' 8 5 = 0#5)) →
    step s = .next (turnedAway 2#4 (v.extractLsb' 0 4) ⟨v.extractLsb' 4 2, v.extractLsb' 8 5, v.getLsbD 16⟩
      { s with agenda := rest, replies := s.replies ++ [.write .ok] })) ∧
  (∀ s : State, s.params.hasPrimOps = true → readReg .status s = 0#32 →
    ∃ t, exec (decodeWord 0x80001007#32) s = .next t ∧ readReg .status t = 0x00000204#32)

/-- 60_exceptions.md rule R223: while BUSY=1 a write to CTRL, DIN or KEY is discarded whole, whatever its value, and
BUSY_WRITE is recorded, the reply being `OK`; the command in flight is untouched. A write to STATUS is never
BUSY_WRITE and clears what its bits 1 and 2 say, one to a read-only register or an unmapped offset is `BUS_ERR`, and a read is never refused. -/
def Obligations.BusyWritesAreDiscarded : Prop :=
  (∀ (i : Instr) (s : State), s.status.busy = true → exec i s = .next (discarded s)) ∧
  (∀ (s : State) (off : Nat) (v : Word) (rest : List Turn), s.status.busy = true → off < 0x400 → regAt off = none →
    s.agenda = wra s.params off v :: rest →
    step s = .next { s with agenda := rest, replies := s.replies ++ [.write .busErr] }) ∧
  ∀ (s : State) (r : Reg) (v : Word) (rest : List Turn), s.status.busy = true →
    ((r = .ctrl ∨ (∃ k, r = .din k) ∨ ∃ k, r = .key k) → s.agenda = wr s.params r v :: rest →
      step s = .next { discarded s with agenda := rest, replies := s.replies ++ [.write .ok] }) ∧
    (r = .status → s.agenda = wr s.params r v :: rest →
      ∃ t, step s = .next t ∧ t.status.done = (s.status.done && !v.getLsbD 1) ∧
        t.status.err = (s.status.err && !v.getLsbD 2) ∧ t.status.errcode = (if v.getLsbD 2 then 0#4 else s.status.errcode) ∧ t.status.busy = true ∧
        t.latch = s.latch ∧ t.replies = s.replies ++ [.write .ok]) ∧
    ((r = .id ∨ (∃ k, r = .dout k) ∨ ∃ n k, r = .rk n k) → s.agenda = wr s.params r v :: rest →
      step s = .next { s with agenda := rest, replies := s.replies ++ [.write .busErr] }) ∧
    (s.agenda = rd s.params r :: rest →
      step s = .next { s with agenda := rest, replies := s.replies ++ [.read .ok (readReg r s)] })

/-- The frame of every write of a command word: data registers, parameters, what the host still does and what it
was answered are unchanged; CTRL and LATCH change only while idle. -/
def Obligations.CommandWriteFrame : Prop :=
  ∀ (i : Instr) (s t : State), exec i s = .next t →
    t.din = s.din ∧ t.dout = s.dout ∧ t.key = s.key ∧ t.rk = s.rk ∧ t.params = s.params ∧
      t.agenda = s.agenda ∧ t.replies = s.replies ∧ t.draws = s.draws ∧
      (s.status.busy = true → t.ctrl = s.ctrl ∧ t.latch = s.latch ∧ t.status.busy = true) ∧
      (∀ r : Reg, r ≠ .ctrl → r ≠ .status → readReg r t = readReg r s)

/-! ### The sequencer -/

/-- 30_encoding.md rule R95: with a command in flight, the sequencer's turn completes it as the dispatch table says; for
any other OP it produces no value (the model's reading of a dispatch with no default arm, log 6), and from a state that
meets the invariant no step puts another OP in flight. -/
def Obligations.PerformIsTheDispatchTable : Prop :=
  (∀ s t : State, Inv s → step s = .next t → t.status.busy = true →
    1 ≤ t.latch.op.toNat ∧ t.latch.op.toNat ≤ 10) ∧
  (∀ s : State, s.status.busy = true →
    ((s.latch.op = 0#4 ∨ 11 ≤ s.latch.op.toNat) → ∀ t, takeTurn .sequencer s ≠ .next t) ∧
    (s.latch.op = 0x1#4 → takeTurn .sequencer s =
      .next (completed (encrypt s.latch.din s.latch.key) (expandKey s.latch.key) s)) ∧
    (s.latch.op = 0x2#4 → takeTurn .sequencer s =
      .next (completed (decrypt s.latch.din s.latch.key) (expandKey s.latch.key) s)) ∧
    (s.latch.op = 0x3#4 → takeTurn .sequencer s = .next (completed s.dout (expandKey s.latch.key) s)) ∧
    (s.latch.op = 0x4#4 → takeTurn .sequencer s = .next (completed (sbox s.latch.din) s.rk s)) ∧
    (s.latch.op = 0x5#4 → takeTurn .sequencer s = .next (completed (sboxInv s.latch.din) s.rk s)) ∧
    (∀ j : RoundClass, s.latch.op = 0x6#4 → s.latch.rclass.toNat = j.val → takeTurn .sequencer s =
      .next (completed ⟨linear j s.latch.din.w, linear j s.latch.din.x, linear j s.latch.din.y,
        linear j s.latch.din.z⟩ s.rk s)) ∧
    (∀ a : Amount 16, s.latch.op = 0x7#4 → s.latch.amt.toNat = a.val → takeTurn .sequencer s =
      .next (completed ⟨(rot16 (s.latch.din.w.extractLsb' 0 16) a).setWidth 32, 0, 0, 0⟩ s.rk s)) ∧
    (∀ a : Amount 32, s.latch.op = 0x8#4 → s.latch.amt.toNat = a.val → takeTurn .sequencer s =
      .next (completed ⟨rot32 s.latch.din.w a, 0, 0, 0⟩ s.rk s)) ∧
    (s.latch.op = 0x9#4 → takeTurn .sequencer s =
      .next (completed ⟨(mixM0 s.latch.din.w s.latch.din.x).1, (mixM0 s.latch.din.w s.latch.din.x).2,
        (mixM0 s.latch.din.y s.latch.din.z).1, (mixM0 s.latch.din.y s.latch.din.z).2⟩ s.rk s)) ∧
    (s.latch.op = 0xA#4 → takeTurn .sequencer s =
      .next (completed ⟨(mixM1 s.latch.din.w s.latch.din.x).1, (mixM1 s.latch.din.w s.latch.din.x).2,
        (mixM1 s.latch.din.y s.latch.din.z).1, (mixM1 s.latch.din.y s.latch.din.z).2⟩ s.rk s)))

/-- With no command in flight the sequencer's step is not enabled (30_encoding.md rule R94), and a turn it is given all
the same changes nothing (the model's form of it, log 5). A LATCH no accepted START can have written, with an OP outside
the dispatch table or an amount outside the rotate contract, gives no value: the turn stops by name (log 6). -/
def Obligations.SequencerOtherwiseWaitsOrStops : Prop :=
  ∀ s : State,
    (s.status.busy = false → takeTurn .sequencer s = .next s) ∧
    (s.status.busy = true → (s.latch.op = 0#4 ∨ 11 ≤ s.latch.op.toNat) →
      takeTurn .sequencer s = .fault .latchedReservedOp) ∧
    (s.status.busy = true → s.latch.op = 0x7#4 → (s.latch.amt = 0#5 ∨ 16 ≤ s.latch.amt.toNat) →
      takeTurn .sequencer s = .fault .latchedIllegalAmount) ∧
    (s.status.busy = true → s.latch.op = 0x8#4 → s.latch.amt = 0#5 →
      takeTurn .sequencer s = .fault .latchedIllegalAmount)

/-- 10_state.md rule R42 (the spec marks it derived): what a completion leaves in DOUT and the table is a function of
the latched inputs, and of nothing else but the values there before, which an operation may leave alone. -/
def Obligations.ResultDependsOnTheLatchAlone : Prop :=
  ∀ s u s' u' : State, s.status.busy = true → u.status.busy = true → s.latch = u.latch →
    takeTurn .sequencer s = .next s' → takeTurn .sequencer u = .next u' →
    (s'.dout = u'.dout ∨ (s'.dout = s.dout ∧ u'.dout = u.dout)) ∧
    (s'.rk = u'.rk ∨ (s'.rk = s.rk ∧ u'.rk = u.rk))

/-- An ENC issued while idle, then any host accesses whatever, then the completion: DOUT is the encryption of the DIN
under the KEY at the START, the table is that key's, and DIN and KEY still hold what they held. -/
def Obligations.EncResultIsFixedAtStart : Prop :=
  ∀ (s : State) (f : Fields) (accesses : List Turn), s.status.busy = false → (∀ t ∈ accesses, IsHost t) →
    s.agenda = wr s.params .ctrl (encode (.enc f)) :: (accesses ++ [.sequencer]) →
    ∃ t, Sys2Proof.core.run (accesses.length + 2) s = .next t ∧
      t.dout = encrypt s.din s.key ∧ t.rk = expandKey s.key ∧ t.din = s.din ∧ t.key = s.key ∧
      t.ctrl = ⟨0x1#4, f.rclass, f.amt, f.ie⟩ ∧ t.status.busy = false ∧ t.status.done = true ∧ t.agenda = []

/-! ### What changes each register, over all steps -/

/-- 10_state.md rule R30: BUSY rises with an accepted START, falls with the completion or a reset, and nothing else
changes it; while it is 1, host writes change none of CTRL, DIN and KEY. -/
def Obligations.BusyChangesOnlyAsSpecified : Prop :=
  ∀ s t : State, step s = .next t →
    (t.status.busy = true ↔
      ((s.status.busy = true ∧ ¬ SequencerNext s ∧ ¬ ResetNext s) ∨
        (s.status.busy = false ∧ ∃ v, NextWrites s .ctrl v ∧ Acceptable s.params v))) ∧
    (s.status.busy = true → (∃ r v, NextWrites s r v) → t.ctrl = s.ctrl ∧ t.din = s.din ∧ t.key = s.key)

/-- 10_state.md rule R31: DONE is set by a completion, cleared by an accepted START, a 1 written to bit 1 of STATUS
and reset; a refused START does not change it, nor does anything else. -/
def Obligations.DoneChangesOnlyAsSpecified : Prop :=
  ∀ s t : State, step s = .next t →
    (t.status.done = true ↔
      ((s.status.busy = true ∧ SequencerNext s) ∨
        (s.status.done = true ∧ ¬ ResetNext s ∧
          (¬ ∃ v, NextWrites s .status v ∧ v.getLsbD 1 = true) ∧
          ¬ (s.status.busy = false ∧ ∃ v, NextWrites s .ctrl v ∧ Acceptable s.params v))))

/-- 10_state.md rules R32 and R33: an error raised by a write sets ERR and overwrites ERRCODE with its code (1
ILLEGAL_OP, 2 ILLEGAL_AMT, 3 BUSY_WRITE); a 1 written to bit 2 of STATUS and a reset set both to 0; no other step
changes either, a successful command among them. -/
def Obligations.ErrorChangesOnlyAsSpecified : Prop :=
  ∀ s t : State, step s = .next t →
    ((∃ v, s.status.busy = false ∧ NextWrites s .ctrl v ∧ v.getLsbD 31 = true ∧
        opPresent s.params (v.extractLsb' 0 4) = false) ∧
      t.status.err = true ∧ t.status.errcode = 1#4) ∨
    ((∃ v, s.status.busy = false ∧ NextWrites s .ctrl v ∧ v.getLsbD 31 = true ∧
        opPresent s.params (v.extractLsb' 0 4) = true ∧ amtLegal (v.extractLsb' 0 4) (v.extractLsb' 8 5) = false) ∧
      t.status.err = true ∧ t.status.errcode = 2#4) ∨
    ((∃ r v, s.status.busy = true ∧ NextWrites s r v ∧ (r = .ctrl ∨ (∃ k, r = .din k) ∨ ∃ k, r = .key k)) ∧
      t.status.err = true ∧ t.status.errcode = 3#4) ∨
    (((∃ v, NextWrites s .status v ∧ v.getLsbD 2 = true) ∨ ResetNext s) ∧
      t.status.err = false ∧ t.status.errcode = 0#4) ∨
    ((¬ ∃ v, s.status.busy = false ∧ NextWrites s .ctrl v ∧ v.getLsbD 31 = true ∧ ¬ Acceptable s.params v) ∧
      (¬ ∃ r v, s.status.busy = true ∧ NextWrites s r v ∧ (r = .ctrl ∨ (∃ k, r = .din k) ∨ ∃ k, r = .key k)) ∧
      (¬ ∃ v, NextWrites s .status v ∧ v.getLsbD 2 = true) ∧ ¬ ResetNext s ∧
      t.status.err = s.status.err ∧ t.status.errcode = s.status.errcode)

/-- 10_state.md rules R34 and R36: DIN and KEY are written by host writes while idle and by reset, and by no command
and no completion. -/
def Obligations.InputsChangeOnlyByHostWritesAndReset : Prop :=
  ∀ s t : State, step s = .next t →
    (t.din = s.din ∨ ResetNext s ∨
      (s.status.busy = false ∧ ∃ k v, NextWrites s (.din k) v ∧ t.din = setBlockWord s.din k v)) ∧
    (t.key = s.key ∨ ResetNext s ∨
      (s.status.busy = false ∧ ∃ k v, NextWrites s (.key k) v ∧ t.key = setKeyWord s.key k v))

/-- 10_state.md rules R35 and R37: DOUT and the table change only in a completion, and only where the latched command
writes them, and by reset. -/
def Obligations.OutputsChangeOnlyByCompletionAndReset : Prop :=
  ∀ s t : State, step s = .next t →
    (t.dout = s.dout ∨ ResetNext s ∨
      (s.status.busy = true ∧ SequencerNext s ∧ s.latch.op ≠ 3#4 ∧ t.status.done = true)) ∧
    (t.rk = s.rk ∨ ResetNext s ∨
      (s.status.busy = true ∧ SequencerNext s ∧ s.latch.op ∈ [1#4, 2#4, 3#4] ∧ t.rk = expandKey s.latch.key))

/-- 10_state.md rule R38: LATCH is written only by an accepted START, from the written fields, DIN and KEY (a reset
leaves it unspecified), and read only by the completion step: any other step, a read of any register among them, does
the same whatever LATCH holds. -/
def Obligations.LatchIsWrittenByStartAndReadByCompletion : Prop :=
  ∀ s t : State, step s = .next t →
    (¬ ResetNext s → t.latch = s.latch ∨
      (s.status.busy = false ∧ ∃ v, NextWrites s .ctrl v ∧ Acceptable s.params v ∧
        t.latch = ⟨v.extractLsb' 0 4, v.extractLsb' 4 2, v.extractLsb' 8 5, s.din, s.key⟩)) ∧
    (∀ v, s.status.busy = false → NextWrites s .ctrl v → Acceptable s.params v →
      t.latch = ⟨v.extractLsb' 0 4, v.extractLsb' 4 2, v.extractLsb' 8 5, s.din, s.key⟩) ∧
    (¬ (s.status.busy = true ∧ SequencerNext s) → ∀ l : Latch, ∃ l' : Latch,
      step { s with latch := l } = .next { t with latch := l' })

/-- 10_state.md rule R39: `irq` is the level IE and (DONE or ERR), so (60_exceptions.md rule R229) a step that raises
it is one that sets DONE or ERR, or a CTRL write that sets IE. -/
def Obligations.InterruptRisesOnlyWithItsCause : Prop :=
  ∀ s t : State, step s = .next t →
    (irq t = true ↔ t.ctrl.ie = true ∧ (t.status.done = true ∨ t.status.err = true)) ∧
    (irq s = false → irq t = true →
      (s.status.done = false ∧ t.status.done = true) ∨ (s.status.err = false ∧ t.status.err = true) ∨
        (s.ctrl.ie = false ∧ ∃ v, NextWrites s .ctrl v ∧ v.getLsbD 16 = true))

/-! ### The bus -/

/-- 20_memory.md rule R61: the register map is the table's, its offsets as numbers, the window's other offsets are no
register, and the read-only registers are ID, DOUT and RK. -/
def Obligations.RegisterMapIsTheTable : Prop :=
  (regAt 0x000 = some .id ∧ regAt 0x004 = some .ctrl ∧ regAt 0x008 = some .status ∧
    (∀ k : Fin 4, regAt (0x010 + 4 * k.val) = some (.din k)) ∧
    (∀ k : Fin 4, regAt (0x020 + 4 * k.val) = some (.dout k)) ∧
    (∀ k : Fin 8, regAt (0x040 + 4 * k.val) = some (.key k)) ∧
    (∀ (r : Fin 17) (k : Fin 4), regAt (0x100 + 0x10 * r.val + 4 * k.val) = some (.rk r k))) ∧
  (∀ r : Reg, regAt (regOffset r) = some r ∧ regOffset r < 0x400 ∧ regOffset r % 4 = 0) ∧
  (∀ (off : Nat) (r : Reg), regAt off = some r → off = regOffset r) ∧
  (∀ off : Nat, regAt off = none ↔ (off % 4 ≠ 0 ∨ off = 0x00C ∨ (0x030 ≤ off ∧ off ≤ 0x03C) ∨
    (0x060 ≤ off ∧ off ≤ 0x0FC) ∨ 0x210 ≤ off)) ∧
  (∀ r : Reg, writable r = false ↔ (r = .id ∨ (∃ k, r = .dout k) ∨ ∃ n k, r = .rk n k))

/-- 20_memory.md rules R62-R65: an access of the window that is not 32 bits wide, drives only some lanes, is misaligned
or unmapped, or writes a read-only register, answers `BUS_ERR` (rule R66: with data 0) and changes no register. -/
def Obligations.RefusedAccessesChangeNothing : Prop :=
  ∀ (s : State) (off : Nat) (size : Size) (lanes : BitVec 4) (v : Word) (rest : List Turn), off < 0x400 →
    ((size ≠ .word ∨ off % 4 ≠ 0 ∨ regAt off = none) → s.agenda = .host (.read (s.params.base + off) size) :: rest →
      step s = .next { s with agenda := rest, replies := s.replies ++ [.read .busErr 0] }) ∧
    ((size ≠ .word ∨ lanes ≠ 0xF#4 ∨ off % 4 ≠ 0 ∨ regAt off = none ∨ ∃ r, regAt off = some r ∧ writable r = false) →
      s.agenda = .host (.write (s.params.base + off) size lanes v) :: rest →
      step s = .next { s with agenda := rest, replies := s.replies ++ [.write .busErr] })

/-- 20_memory.md rule R71: reading any register answers `OK` with its value, also while BUSY=1, and changes nothing,
so a second read with no step between answers the same. -/
def Obligations.ReadsHaveNoSideEffects : Prop :=
  (∀ (s : State) (r : Reg) (rest : List Turn), s.agenda = rd s.params r :: rest →
    step s = .next { s with agenda := rest, replies := s.replies ++ [.read .ok (readReg r s)] }) ∧
  (∀ (s : State) (r : Reg) (rest : List Turn), s.agenda = rd s.params r :: rd s.params r :: rest →
    Sys2Proof.core.run 2 s =
      .next { s with agenda := rest, replies := s.replies ++ [.read .ok (readReg r s), .read .ok (readReg r s)] })

/-- A host access outside the window, which 20_memory.md rule R60 says is not decoded: no register changes and the block
gives no reply (the model's reading of it, log 9). -/
def Obligations.AccessesOutsideTheWindowAreNotDecoded : Prop :=
  ∀ (s : State) (a : Access) (rest : List Turn), s.agenda = .host a :: rest →
    (accessAddr a < s.params.base ∨ s.params.base + 0x400 ≤ accessAddr a) → step s = .next { s with agenda := rest }

/-- 10_state.md rules R34 and R36: a word written to DIN or KEY while idle is stored in that word alone and is what
the next read of it returns. -/
def Obligations.InputWritesReadBack : Prop :=
  (∀ (s : State) (k : Fin 4) (v : Word) (rest : List Turn), s.status.busy = false →
    s.agenda = wr s.params (.din k) v :: rd s.params (.din k) :: rest →
    ∃ t, Sys2Proof.core.run 2 s =
        .next { s with din := t, agenda := rest, replies := s.replies ++ [.write .ok, .read .ok v] } ∧
      blockWord t k = v ∧ ∀ m, m ≠ k → blockWord t m = blockWord s.din m) ∧
  (∀ (s : State) (k : Fin 8) (v : Word) (rest : List Turn), s.status.busy = false →
    s.agenda = wr s.params (.key k) v :: rd s.params (.key k) :: rest →
    ∃ t, Sys2Proof.core.run 2 s =
        .next { s with key := t, agenda := rest, replies := s.replies ++ [.write .ok, .read .ok v] } ∧
      keyWord t k = v ∧ ∀ m, m ≠ k → keyWord t m = keyWord s.key m)

/-- 10_state.md rule R29: how STATUS reads (0 after reset), and that a write to it, BUSY or not, clears DONE by bit 1
and ERR with ERRCODE by bit 2, sets nothing and changes nothing else. -/
def Obligations.StatusLayoutAndWriteOneToClear : Prop :=
  (∀ (s : State) (i : Nat), i < 32 → (readReg .status s).getLsbD i =
    if i = 0 then s.status.busy else if i = 1 then s.status.done else if i = 2 then s.status.err
    else if 8 ≤ i ∧ i ≤ 11 then s.status.errcode.getLsbD (i - 8) else false) ∧
  (∀ (s : State) (v : Word) (rest : List Turn), s.agenda = wr s.params .status v :: rest →
    step s = .next { s with
      status := { busy := s.status.busy,
                  done := if v.getLsbD 1 then false else s.status.done,
                  err := if v.getLsbD 2 then false else s.status.err,
                  errcode := if v.getLsbD 2 then 0#4 else s.status.errcode }
      agenda := rest, replies := s.replies ++ [.write .ok] }) ∧
  readReg .status State.reset = 0#32

/-! ### Parameters and the platform -/

/-- 70_reset_and_hazards.md rule R268: no step depends on a latency, and no step changes a parameter. -/
def Obligations.NoStepDependsOnALatency : Prop :=
  ∀ (s : State) (e d k p : Nat),
    (∀ t, step s = .next t → t.params = s.params ∧
      step (withLatencies e d k p s) = .next (withLatencies e d k p t)) ∧
    (∀ r, step s = .fault r → step (withLatencies e d k p s) = .fault r) ∧
    (∀ r, step s = .refused r → step (withLatencies e d k p s) = .refused r)

/-- 60_exceptions.md rule R234 and 70_reset_and_hazards.md rule R261: gating the clock while BUSY=0 changes nothing;
gating it while BUSY=1, and an access that overlaps reset, are outside the model, which refuses them by name (log 8). -/
def Obligations.PlatformRulesAreChecked : Prop :=
  ∀ (s : State) (rest : List Turn),
    (s.agenda = .clockGate :: rest → s.status.busy = false → step s = .next { s with agenda := rest }) ∧
    (s.agenda = .clockGate :: rest → s.status.busy = true → step s = .refused .clockGatedWhileBusy) ∧
    (∀ a, s.agenda = .accessDuringReset a :: rest → step s = .refused .accessOverlapsReset)

/-! ### What the registers read as -/

/-- 10_state.md rules R21, R22, R34 to R37 and 20_memory.md rule R68: in every state ID reads as its constant, word `k`
of DIN, DOUT, KEY and round key `r` as that word, and CTRL as its fields in their places with START and the reserved
bits 0. (STATUS is `StatusLayoutAndWriteOneToClear`'s.) -/
def Obligations.RegistersReadTheirWords : Prop :=
  ∀ s : State,
    readReg .id s = 0x41524144#32 ∧
    (readReg (.din 0) s = s.din.w ∧ readReg (.din 1) s = s.din.x ∧
      readReg (.din 2) s = s.din.y ∧ readReg (.din 3) s = s.din.z) ∧
    (readReg (.dout 0) s = s.dout.w ∧ readReg (.dout 1) s = s.dout.x ∧
      readReg (.dout 2) s = s.dout.y ∧ readReg (.dout 3) s = s.dout.z) ∧
    (readReg (.key 0) s = s.key.k0 ∧ readReg (.key 1) s = s.key.k1 ∧ readReg (.key 2) s = s.key.k2 ∧
      readReg (.key 3) s = s.key.k3 ∧ readReg (.key 4) s = s.key.k4 ∧ readReg (.key 5) s = s.key.k5 ∧
      readReg (.key 6) s = s.key.k6 ∧ readReg (.key 7) s = s.key.k7) ∧
    (∀ r : Fin 17, readReg (.rk r 0) s = s.rk[r].w ∧ readReg (.rk r 1) s = s.rk[r].x ∧
      readReg (.rk r 2) s = s.rk[r].y ∧ readReg (.rk r 3) s = s.rk[r].z) ∧
    (∀ i : Nat, i < 32 → (readReg .ctrl s).getLsbD i =
      if i ≤ 3 then s.ctrl.op.getLsbD i
      else if 4 ≤ i ∧ i ≤ 5 then s.ctrl.rclass.getLsbD (i - 4)
      else if 8 ≤ i ∧ i ≤ 12 then s.ctrl.amt.getLsbD (i - 8)
      else if i = 16 then s.ctrl.ie else false)
end

