-- ==== Sys2Proof/Laws/State.lean ====
section
/-! SUPPORT. One lemma per field per state update of Machine/Ops.lean, and the fields of the STATUS updates. -/

namespace Sys2Proof.Machine

@[simp] theorem raiseError_params (e : CmdError) (s : State) : (raiseError e s).params = s.params := rfl
@[simp] theorem raiseError_ctrl (e : CmdError) (s : State) : (raiseError e s).ctrl = s.ctrl := rfl
@[simp] theorem raiseError_status (e : CmdError) (s : State) : (raiseError e s).status = statusRaise e s.status := rfl
@[simp] theorem raiseError_din (e : CmdError) (s : State) : (raiseError e s).din = s.din := rfl
@[simp] theorem raiseError_dout (e : CmdError) (s : State) : (raiseError e s).dout = s.dout := rfl
@[simp] theorem raiseError_key (e : CmdError) (s : State) : (raiseError e s).key = s.key := rfl
@[simp] theorem raiseError_rk (e : CmdError) (s : State) : (raiseError e s).rk = s.rk := rfl
@[simp] theorem raiseError_latch (e : CmdError) (s : State) : (raiseError e s).latch = s.latch := rfl
@[simp] theorem raiseError_draws (e : CmdError) (s : State) : (raiseError e s).draws = s.draws := rfl
@[simp] theorem raiseError_agenda (e : CmdError) (s : State) : (raiseError e s).agenda = s.agenda := rfl
@[simp] theorem raiseError_replies (e : CmdError) (s : State) : (raiseError e s).replies = s.replies := rfl

@[simp] theorem writeStatus_params (v : Word) (s : State) : (writeStatus v s).params = s.params := rfl
@[simp] theorem writeStatus_ctrl (v : Word) (s : State) : (writeStatus v s).ctrl = s.ctrl := rfl
@[simp] theorem writeStatus_status (v : Word) (s : State) : (writeStatus v s).status = statusClear v s.status := rfl
@[simp] theorem writeStatus_din (v : Word) (s : State) : (writeStatus v s).din = s.din := rfl
@[simp] theorem writeStatus_dout (v : Word) (s : State) : (writeStatus v s).dout = s.dout := rfl
@[simp] theorem writeStatus_key (v : Word) (s : State) : (writeStatus v s).key = s.key := rfl
@[simp] theorem writeStatus_rk (v : Word) (s : State) : (writeStatus v s).rk = s.rk := rfl
@[simp] theorem writeStatus_latch (v : Word) (s : State) : (writeStatus v s).latch = s.latch := rfl
@[simp] theorem writeStatus_draws (v : Word) (s : State) : (writeStatus v s).draws = s.draws := rfl
@[simp] theorem writeStatus_agenda (v : Word) (s : State) : (writeStatus v s).agenda = s.agenda := rfl
@[simp] theorem writeStatus_replies (v : Word) (s : State) : (writeStatus v s).replies = s.replies := rfl

@[simp] theorem storeCtrl_params (op : BitVec 4) (f : Fields) (s : State) : (storeCtrl op f s).params = s.params := rfl
@[simp] theorem storeCtrl_ctrl (op : BitVec 4) (f : Fields) (s : State) : (storeCtrl op f s).ctrl = { op := op, rclass := f.rclass, amt := f.amt, ie := f.ie } := rfl
@[simp] theorem storeCtrl_status (op : BitVec 4) (f : Fields) (s : State) : (storeCtrl op f s).status = s.status := rfl
@[simp] theorem storeCtrl_din (op : BitVec 4) (f : Fields) (s : State) : (storeCtrl op f s).din = s.din := rfl
@[simp] theorem storeCtrl_dout (op : BitVec 4) (f : Fields) (s : State) : (storeCtrl op f s).dout = s.dout := rfl
@[simp] theorem storeCtrl_key (op : BitVec 4) (f : Fields) (s : State) : (storeCtrl op f s).key = s.key := rfl
@[simp] theorem storeCtrl_rk (op : BitVec 4) (f : Fields) (s : State) : (storeCtrl op f s).rk = s.rk := rfl
@[simp] theorem storeCtrl_latch (op : BitVec 4) (f : Fields) (s : State) : (storeCtrl op f s).latch = s.latch := rfl
@[simp] theorem storeCtrl_draws (op : BitVec 4) (f : Fields) (s : State) : (storeCtrl op f s).draws = s.draws := rfl
@[simp] theorem storeCtrl_agenda (op : BitVec 4) (f : Fields) (s : State) : (storeCtrl op f s).agenda = s.agenda := rfl
@[simp] theorem storeCtrl_replies (op : BitVec 4) (f : Fields) (s : State) : (storeCtrl op f s).replies = s.replies := rfl

@[simp] theorem accept_params (op : BitVec 4) (f : Fields) (s : State) : (accept op f s).params = s.params := rfl
@[simp] theorem accept_ctrl (op : BitVec 4) (f : Fields) (s : State) : (accept op f s).ctrl = s.ctrl := rfl
@[simp] theorem accept_status (op : BitVec 4) (f : Fields) (s : State) : (accept op f s).status = statusAccept s.status := rfl
@[simp] theorem accept_din (op : BitVec 4) (f : Fields) (s : State) : (accept op f s).din = s.din := rfl
@[simp] theorem accept_dout (op : BitVec 4) (f : Fields) (s : State) : (accept op f s).dout = s.dout := rfl
@[simp] theorem accept_key (op : BitVec 4) (f : Fields) (s : State) : (accept op f s).key = s.key := rfl
@[simp] theorem accept_rk (op : BitVec 4) (f : Fields) (s : State) : (accept op f s).rk = s.rk := rfl
@[simp] theorem accept_latch (op : BitVec 4) (f : Fields) (s : State) : (accept op f s).latch = { op := op, rclass := f.rclass, amt := f.amt, din := s.din, key := s.key } := rfl
@[simp] theorem accept_draws (op : BitVec 4) (f : Fields) (s : State) : (accept op f s).draws = s.draws := rfl
@[simp] theorem accept_agenda (op : BitVec 4) (f : Fields) (s : State) : (accept op f s).agenda = s.agenda := rfl
@[simp] theorem accept_replies (op : BitVec 4) (f : Fields) (s : State) : (accept op f s).replies = s.replies := rfl

@[simp] theorem finish_params (s : State) : (finish s).params = s.params := rfl
@[simp] theorem finish_ctrl (s : State) : (finish s).ctrl = s.ctrl := rfl
@[simp] theorem finish_status (s : State) : (finish s).status = statusComplete s.status := rfl
@[simp] theorem finish_din (s : State) : (finish s).din = s.din := rfl
@[simp] theorem finish_dout (s : State) : (finish s).dout = s.dout := rfl
@[simp] theorem finish_key (s : State) : (finish s).key = s.key := rfl
@[simp] theorem finish_rk (s : State) : (finish s).rk = s.rk := rfl
@[simp] theorem finish_latch (s : State) : (finish s).latch = s.latch := rfl
@[simp] theorem finish_draws (s : State) : (finish s).draws = s.draws := rfl
@[simp] theorem finish_agenda (s : State) : (finish s).agenda = s.agenda := rfl
@[simp] theorem finish_replies (s : State) : (finish s).replies = s.replies := rfl

@[simp] theorem reply_params (r : Reply) (s : State) : (reply r s).params = s.params := rfl
@[simp] theorem reply_ctrl (r : Reply) (s : State) : (reply r s).ctrl = s.ctrl := rfl
@[simp] theorem reply_status (r : Reply) (s : State) : (reply r s).status = s.status := rfl
@[simp] theorem reply_din (r : Reply) (s : State) : (reply r s).din = s.din := rfl
@[simp] theorem reply_dout (r : Reply) (s : State) : (reply r s).dout = s.dout := rfl
@[simp] theorem reply_key (r : Reply) (s : State) : (reply r s).key = s.key := rfl
@[simp] theorem reply_rk (r : Reply) (s : State) : (reply r s).rk = s.rk := rfl
@[simp] theorem reply_latch (r : Reply) (s : State) : (reply r s).latch = s.latch := rfl
@[simp] theorem reply_draws (r : Reply) (s : State) : (reply r s).draws = s.draws := rfl
@[simp] theorem reply_agenda (r : Reply) (s : State) : (reply r s).agenda = s.agenda := rfl
@[simp] theorem reply_replies (r : Reply) (s : State) : (reply r s).replies = s.replies ++ [r] := rfl

@[simp] theorem resetBlock_params (s : State) : (resetBlock s).params = s.params := rfl
@[simp] theorem resetBlock_ctrl (s : State) : (resetBlock s).ctrl = Ctrl.zero := rfl
@[simp] theorem resetBlock_status (s : State) : (resetBlock s).status = Status.zero := rfl
@[simp] theorem resetBlock_din (s : State) : (resetBlock s).din = Block.zero := rfl
@[simp] theorem resetBlock_dout (s : State) : (resetBlock s).dout = Block.zero := rfl
@[simp] theorem resetBlock_key (s : State) : (resetBlock s).key = Key.zero := rfl
@[simp] theorem resetBlock_rk (s : State) : (resetBlock s).rk = Vector.replicate 17 Block.zero := rfl
@[simp] theorem resetBlock_latch (s : State) : (resetBlock s).latch = Config.freeLatch s.draws := rfl
@[simp] theorem resetBlock_draws (s : State) : (resetBlock s).draws = s.draws + 1 := rfl
@[simp] theorem resetBlock_agenda (s : State) : (resetBlock s).agenda = s.agenda := rfl
@[simp] theorem resetBlock_replies (s : State) : (resetBlock s).replies = s.replies := rfl

@[simp] theorem statusRaise_busy (e : CmdError) (t : Status) : (statusRaise e t).busy = t.busy := rfl
@[simp] theorem statusRaise_done (e : CmdError) (t : Status) : (statusRaise e t).done = t.done := rfl
@[simp] theorem statusRaise_err (e : CmdError) (t : Status) : (statusRaise e t).err = true := rfl
@[simp] theorem statusRaise_errcode (e : CmdError) (t : Status) : (statusRaise e t).errcode = errorCode e := rfl

@[simp] theorem statusClear_busy (v : Word) (t : Status) : (statusClear v t).busy = t.busy := rfl
@[simp] theorem statusClear_done (v : Word) (t : Status) : (statusClear v t).done = (t.done && !v.getLsbD 1) := rfl
@[simp] theorem statusClear_err (v : Word) (t : Status) : (statusClear v t).err = (t.err && !v.getLsbD 2) := rfl
@[simp] theorem statusClear_errcode (v : Word) (t : Status) : (statusClear v t).errcode = if v.getLsbD 2 then 0#4 else t.errcode := rfl

@[simp] theorem statusAccept_busy (t : Status) : (statusAccept t).busy = true := rfl
@[simp] theorem statusAccept_done (t : Status) : (statusAccept t).done = false := rfl
@[simp] theorem statusAccept_err (t : Status) : (statusAccept t).err = t.err := rfl
@[simp] theorem statusAccept_errcode (t : Status) : (statusAccept t).errcode = t.errcode := rfl

@[simp] theorem statusComplete_busy (t : Status) : (statusComplete t).busy = false := rfl
@[simp] theorem statusComplete_done (t : Status) : (statusComplete t).done = true := rfl
@[simp] theorem statusComplete_err (t : Status) : (statusComplete t).err = t.err := rfl
@[simp] theorem statusComplete_errcode (t : Status) : (statusComplete t).errcode = t.errcode := rfl

end Sys2Proof.Machine
end

