-- ==== Sys2Proof/Laws/Ops.lean ====
section
/-! SUPPORT. For each shared operation, once, everything it can do. -/

namespace Sys2Proof.Machine

/-! ### Writes of a command word -/

/-- The four outcomes of a CTRL write with START = 1, in the order of its checks (30_encoding.md rule R89). -/
theorem issue_cases (op : BitVec 4) (f : Fields) (s : State) :
    (s.status.busy = true ∧ issue op f s = raiseError .busyWrite s) ∨
    (s.status.busy = false ∧ opPresent s.params op = false ∧
      issue op f s = raiseError .illegalOp (storeCtrl op f s)) ∨
    (s.status.busy = false ∧ opPresent s.params op = true ∧ amtLegal op f.amt = false ∧
      issue op f s = raiseError .illegalAmt (storeCtrl op f s)) ∨
    (s.status.busy = false ∧ opPresent s.params op = true ∧ amtLegal op f.amt = true ∧
      issue op f s = accept op f (storeCtrl op f s)) := by
  cases hb : s.status.busy <;> cases ho : opPresent s.params op <;> cases ha : amtLegal op f.amt <;>
    simp [issue, hb, ho, ha]

/-- The two outcomes of a CTRL write with START = 0 (30_encoding.md rule R88). -/
theorem configure_cases (op : BitVec 4) (f : Fields) (s : State) :
    (s.status.busy = true ∧ configure op f s = raiseError .busyWrite s) ∨
    (s.status.busy = false ∧ configure op f s = storeCtrl op f s) := by
  cases hb : s.status.busy <;> simp [configure, hb]

/-- The two outcomes of a write to DINk (10_state.md rule R34). -/
theorem writeDin_cases (k : Fin 4) (v : Word) (s : State) :
    (s.status.busy = true ∧ writeDin k v s = raiseError .busyWrite s) ∨
    (s.status.busy = false ∧ writeDin k v s = { s with din := setBlockWord s.din k v }) := by
  cases hb : s.status.busy <;> simp [writeDin, hb]

/-- The two outcomes of a write to KEYk (10_state.md rule R36). -/
theorem writeKey_cases (k : Fin 8) (v : Word) (s : State) :
    (s.status.busy = true ∧ writeKey k v s = raiseError .busyWrite s) ∨
    (s.status.busy = false ∧ writeKey k v s = { s with key := setKeyWord s.key k v }) := by
  cases hb : s.status.busy <;> simp [writeKey, hb]

/-- Every instruction is a CFG or an issued START of some OP. -/
theorem exec_cases (i : Instr) (s : State) :
    ∃ op f, exec i s = .next (configure op f s) ∨ exec i s = .next (issue op f s) := by
  cases i with
  | cfg op f => exact ⟨op, f, .inl rfl⟩
  | reservedCF op f => exact ⟨op, f, .inr rfl⟩
  | enc f => exact ⟨_, f, .inr rfl⟩
  | dec f => exact ⟨_, f, .inr rfl⟩
  | keyexp f => exact ⟨_, f, .inr rfl⟩
  | sbox f => exact ⟨_, f, .inr rfl⟩
  | sboxinv f => exact ⟨_, f, .inr rfl⟩
  | lin f => exact ⟨_, f, .inr rfl⟩
  | rot16 f => exact ⟨_, f, .inr rfl⟩
  | rot32 f => exact ⟨_, f, .inr rfl⟩
  | m0 f => exact ⟨_, f, .inr rfl⟩
  | m1 f => exact ⟨_, f, .inr rfl⟩
  | reserved0 f => exact ⟨_, f, .inr rfl⟩
  | reservedB f => exact ⟨_, f, .inr rfl⟩

/-! ### Completions -/

/-- A command by its OP value. -/
theorem cmdOf_opcode (c : Cmd) : cmdOf (opcode c) = some c := by cases c <;> decide

/-- An OP value by its command. -/
theorem opcode_of_cmdOf {op : BitVec 4} {c : Cmd} (h : cmdOf op = some c) : op = opcode c := by
  revert op; cases c <;> decide

/-- `amountOf` keeps the value and has exactly the amounts of the contract. -/
theorem amountOf_eq_some {n : Nat} {amt : BitVec 5} {a : Amount n} :
    amountOf n amt = some a ↔ a.val = amt.toNat := by
  unfold amountOf
  split
  · simp [Subtype.ext_iff, eq_comm]
  · rename_i h
    refine iff_of_false (by simp) fun e => h ?_
    rw [← e]; exact a.property

/-- A completion that answers a next state changes DOUT, the table and STATUS only. -/
theorem complete_next {s t : State} (h : complete s = .next t) :
    ∃ dout rk, t = finishBoth dout rk s := by
  unfold complete at h
  split at h
  case h_7 =>
    unfold completeRot16 at h
    split at h
    · cases h; exact ⟨_, s.rk, rfl⟩
    · cases h
  case h_8 =>
    unfold completeRot32 at h
    split at h
    · cases h; exact ⟨_, s.rk, rfl⟩
    · cases h
  case h_11 => cases h
  case h_3 => cases h; exact ⟨s.dout, _, rfl⟩
  all_goals (cases h; exact ⟨_, _, rfl⟩)

/-! ### A host access -/

/-- An address at an offset of the window. -/
theorem windowOffset_base_add (p : Params) {off : Nat} (h : off < 0x400) :
    windowOffset p (p.base + off) = some off := by
  unfold windowOffset
  rw [if_pos (by omega)]
  simp

/-- An offset of the window by its address. -/
theorem windowOffset_eq_some {p : Params} {addr off : Nat} (h : windowOffset p addr = some off) :
    addr = p.base + off ∧ off < 0x400 := by
  unfold windowOffset at h
  split at h
  · cases h; omega
  · cases h

/-- The register an accepted write reaches: the access is one word wide with all its lanes, and the register is writable. -/
theorem writeTarget_eq_some {off : Nat} {size : Size} {lanes : BitVec 4} {r : Reg} :
    writeTarget off size lanes = some r ↔
      size = .word ∧ lanes = 0xF#4 ∧ regAt off = some r ∧ writable r = true := by
  unfold writeTarget
  split
  · rename_i h; simp [h, Option.filter_eq_some_iff]
  · rename_i h
    constructor
    · intro e; cases e
    · rintro ⟨h1, h2, -⟩; exact absurd ⟨h1, h2⟩ h

/-- Everything a host access can do: it is outside the window and nothing happens; it gets a reply and changes no
register; or it is an accepted write of a writable register. -/
theorem busAccess_cases (a : Access) (s : State) :
    busAccess a s = .next s ∨
    (∃ r, busAccess a s = .next (reply r s)) ∨
    (∃ off r v, a = .write (s.params.base + off) .word 0xF#4 v ∧ off < 0x400 ∧ regAt off = some r ∧
      writable r = true ∧ busAccess a s = writeReg r v (reply (.write .ok) s)) := by
  cases hw : windowOffset s.params (accessAddr a) with
  | none => left; simp [busAccess, hw]
  | some off =>
    right
    obtain ⟨hAddr, hOff⟩ := windowOffset_eq_some hw
    cases a with
    | read addr size => left; exact ⟨readReply off size s, by simp only [busAccess, hw, accessAt]⟩
    | write addr size lanes v =>
      cases ht : writeTarget off size lanes with
      | none => left; exact ⟨.write .busErr, by simp only [busAccess, hw, accessAt, ht]⟩
      | some r =>
        right
        obtain ⟨rfl, rfl, hr, hwr⟩ := writeTarget_eq_some.mp ht
        have hAddr' : addr = s.params.base + off := hAddr
        exact ⟨off, r, v, by rw [hAddr'], hOff, hr, hwr, by simp only [busAccess, hw, accessAt, ht]⟩

/-- A host write to CTRL, STATUS, DIN or KEY never stops the machine. -/
theorem writeReg_next (r : Reg) (v : Word) (s : State) : ∃ t, writeReg r v s = .next t := by
  cases r with
  | ctrl => obtain ⟨op, f, h | h⟩ := exec_cases (decodeWord v) s <;> exact ⟨_, h⟩
  | id => exact ⟨_, rfl⟩
  | status => exact ⟨_, rfl⟩
  | din k => exact ⟨_, rfl⟩
  | dout k => exact ⟨_, rfl⟩
  | key k => exact ⟨_, rfl⟩
  | rk n k => exact ⟨_, rfl⟩

end Sys2Proof.Machine
end

