-- ==== Sys2Proof/Laws/PerInstr.lean ====
section
/-! SUPPORT. The laws made per instruction (LAWS.json): the encoding of a well-formed instruction belongs to its row of spec/opcode_table.json. -/

namespace Sys2Proof.Laws.EncodedInRow

/-- The word of a well-formed instruction has its row's fixed bits. -/
def Statement (i : Instr) : Prop := i.wellFormed = true → i.row.holds (encode i) = true

/-- The bits a command word has under the mask of a START row. -/
theorem packWord_and_mask (start : Bool) (op : BitVec 4) (f : Fields) :
    packWord start op f &&& 0x8000000F#32 = BitVec.ofBool start ++ 0#27 ++ op := by
  apply BitVec.eq_of_getLsbD_eq
  intro i hi
  simp only [packWord, BitVec.getLsbD_and, BitVec.getLsbD_append]
  interval_cases i <;> simp

/-- A START word is in the row that fixes its OP. -/
theorem start_in_row (op : BitVec 4) (f : Fields) :
    Row.holds ⟨1#1 ++ 0#27 ++ op, 0x8000000F#32⟩ (packWord true op f) = true := by
  simp [Row.holds, packWord_and_mask]

/-- The mask of the 0xC-0xF row, and the mask of the CFG row, are within that of the START rows. -/
theorem and_narrower (v : Word) :
    v &&& 0x8000000C#32 = v &&& 0x8000000F#32 &&& 0x8000000C#32 ∧
    v &&& 0x80000000#32 = v &&& 0x8000000F#32 &&& 0x80000000#32 := by
  simp [BitVec.and_assoc]

theorem enc (f : Fields) : Statement (.enc f) := fun _ => start_in_row _ f

theorem dec (f : Fields) : Statement (.dec f) := fun _ => start_in_row _ f

theorem keyexp (f : Fields) : Statement (.keyexp f) := fun _ => start_in_row _ f

theorem sbox (f : Fields) : Statement (.sbox f) := fun _ => start_in_row _ f

theorem sboxinv (f : Fields) : Statement (.sboxinv f) := fun _ => start_in_row _ f

theorem lin (f : Fields) : Statement (.lin f) := fun _ => start_in_row _ f

theorem rot16 (f : Fields) : Statement (.rot16 f) := fun _ => start_in_row _ f

theorem rot32 (f : Fields) : Statement (.rot32 f) := fun _ => start_in_row _ f

theorem m0 (f : Fields) : Statement (.m0 f) := fun _ => start_in_row _ f

theorem m1 (f : Fields) : Statement (.m1 f) := fun _ => start_in_row _ f

theorem reserved0 (f : Fields) : Statement (.reserved0 f) := fun _ => start_in_row _ f

theorem reservedB (f : Fields) : Statement (.reservedB f) := fun _ => start_in_row _ f

theorem cfg (op : BitVec 4) (f : Fields) : Statement (.cfg op f) := by
  intro _
  simp only [Instr.row, encode, Row.holds]
  rw [(and_narrower _).2, packWord_and_mask]
  clear * -
  revert op
  decide

theorem reservedCF (op : BitVec 4) (f : Fields) : Statement (.reservedCF op f) := by
  intro h
  have hop : 0xC#4 ≤ op := by simpa [Instr.wellFormed] using h
  simp only [Instr.row, encode, Row.holds]
  rw [(and_narrower _).1, packWord_and_mask]
  clear h
  revert op
  decide

end Sys2Proof.Laws.EncodedInRow
end

