-- ==== Sys2Proof/Laws/Step.lean ====
section
/-! SUPPORT. Everything a step that answers a next state can do, said once; and how a run unfolds. -/

namespace Sys2Proof.Machine

/-- The sequencer has the next turn, and what its turn answers. -/
theorem sequencerTurn_cases {s t : State} (h : sequencerTurn s = .next t) :
    (s.status.busy = false ∧ t = s) ∨ (s.status.busy = true ∧ complete s = .next t) := by
  unfold sequencerTurn at h
  cases hb : s.status.busy <;> simp only [hb, if_true, Bool.false_eq_true, if_false] at h
  · exact .inl ⟨rfl, (Host.Outcome.next.inj h).symm⟩
  · exact .inr ⟨rfl, h⟩

/-- A step that answers a next state is a reset, the sequencer's turn with nothing or with a completion, a turn that
changes no register (a gated clock, or a host access that only gets a reply or none), or an accepted host write of
a writable register. -/
theorem step_cases {s t : State} (h : step s = .next t) :
    (∃ rest, s.agenda = .reset :: rest ∧ t = resetBlock { s with agenda := rest }) ∨
    ((s.agenda = [] ∨ s.agenda = .sequencer :: s.agenda.tail) ∧
      ((s.status.busy = false ∧ t = { s with agenda := s.agenda.tail }) ∨
        (s.status.busy = true ∧ complete { s with agenda := s.agenda.tail } = .next t))) ∨
    (∃ rest, s.agenda = .clockGate :: rest ∧ s.status.busy = false ∧ t = { s with agenda := rest }) ∨
    (∃ a rest, s.agenda = .host a :: rest ∧
      ((∃ replies, t = { s with agenda := rest, replies := replies }) ∨
        ∃ off r v, a = .write (s.params.base + off) .word 0xF#4 v ∧ regAt off = some r ∧ writable r = true ∧
          writeReg r v (reply (.write .ok) { s with agenda := rest }) = .next t)) := by
  unfold step at h
  split at h
  · rename_i ha
    have e : { s with agenda := s.agenda.tail } = s := by cases s; simp_all
    rw [e]
    exact .inr (.inl ⟨.inl ha, sequencerTurn_cases h⟩)
  · rename_i turn rest ha
    rw [ha]
    cases turn with
    | sequencer => exact .inr (.inl ⟨.inr rfl, sequencerTurn_cases h⟩)
    | reset => exact .inl ⟨rest, rfl, (Host.Outcome.next.inj h).symm⟩
    | clockGate =>
      simp only [takeTurn, clockGateTurn] at h
      cases hb : s.status.busy <;> simp only [hb, if_true, Bool.false_eq_true, if_false] at h
      · exact .inr (.inr (.inl ⟨rest, rfl, rfl, (Host.Outcome.next.inj h).symm⟩))
      · cases h
    | accessDuringReset a => cases h
    | host a =>
      refine .inr (.inr (.inr ⟨a, rest, rfl, ?_⟩))
      simp only [takeTurn] at h
      rcases busAccess_cases a { s with agenda := rest } with e | ⟨r, e⟩ | ⟨off, r, v, ha, -, hr, hw, e⟩
      · rw [e] at h; exact .inl ⟨s.replies, (Host.Outcome.next.inj h).symm⟩
      · rw [e] at h; exact .inl ⟨_, (Host.Outcome.next.inj h).symm⟩
      · rw [e] at h; exact .inr ⟨off, r, v, ha, hr, hw, h⟩

/-- A run of one step more is that step and then the run from the state it answers. -/
theorem run_succ_of_step {s t : State} (n : Nat) (h : step s = .next t) :
    Sys2Proof.core.run (n + 1) s = Sys2Proof.core.run n t := by
  have h' : Sys2Proof.core.step s = .next t := h
  simp [Host.Core.run, h']

end Sys2Proof.Machine
end

