-- ==== Sys2Proof/Tests/Slice0.lean ====
section
/-! SUPPORT. Small tests, their expected results from the spec's encodings and vectors; and for each statement with hypotheses a state and operands that meet them. -/

namespace Sys2Proof.Tests

open Sys2Proof.Machine Sys2Proof.Statements

/-! ### States for the tests -/

/-- The key of bytes 0..31 (95_test_vectors.md W2). -/
def keyW2 : Key :=
  ⟨0x03020100, 0x07060504, 0x0b0a0908, 0x0f0e0d0c, 0x13121110, 0x17161514, 0x1b1a1918, 0x1f1e1d1c⟩

/-- Fields that are all 0. -/
def f0 : Fields := ⟨0, 0, false⟩

/-- Reset, with these turns to come. -/
def idle (agenda : List Turn) : State := { State.reset with agenda := agenda }

/-- `idle` without the primitive commands. -/
def noPrim (agenda : List Turn) : State :=
  { idle agenda with params := { Params.default with hasPrimOps := false } }

/-- Reset, then a command accepted with these fields, DIN and KEY, and not complete; then these turns to come. -/
def inFlight (op : BitVec 4) (f : Fields) (din : Block) (key : Key) (agenda : List Turn) : State :=
  { idle agenda with
    ctrl := ⟨op, f.rclass, f.amt, f.ie⟩
    status := ⟨true, false, false, 0⟩
    din := din
    key := key
    latch := ⟨op, f.rclass, f.amt, din, key⟩ }

/-- SBOX in flight on a zero block. -/
def busySbox (agenda : List Turn) : State := inFlight 4 f0 Block.zero Key.zero agenda

/-- The state a step answers has this property. -/
def stepHas (p : State → Bool) (s : State) : Bool :=
  match step s with
  | .next t => p t
  | .fault _ => false
  | .refused _ => false

/-- The state after one step leaves this block in DOUT, with BUSY=0 and DONE=1. -/
def leaves (b : Block) (s : State) : Bool :=
  stepHas (fun t => t.dout == b && !t.status.busy && t.status.done) s

/-- The CTRL and STATUS words and `irq` after a write of this word to CTRL. -/
def ctrlWriteGives (v ctrl status : Word) (interrupt : Bool) (s : State) : Bool :=
  stepHas (fun t => readReg .ctrl t == ctrl && readReg .status t == status && irq t == interrupt
    && t.replies == s.replies ++ [.write .ok]) { s with agenda := [wr s.params .ctrl v] }

/-! ### WellFormed: the check refuses ill-formed terms -/

theorem test_wellFormed_refuses_reservedCF_of_command : (Instr.reservedCF 0x5 f0).wellFormed = false := by decide
theorem test_wellFormed_refuses_reservedCF_of_0xB : (Instr.reservedCF 0xB f0).wellFormed = false := by decide
theorem test_wellFormed_takes_reservedCF_bounds :
    (Instr.reservedCF 0xC f0).wellFormed = true ∧ (Instr.reservedCF 0xF f0).wellFormed = true := by decide

/-! ### Decoding, bit by bit from 30_encoding.md rule R80: START, 14 reserved, IE, 3 reserved, AMT, 2 reserved, RCLASS, OP -/

theorem test_decode_enc : decodeWord 0b1_00000000000000_1_000_00000_00_00_0001#32 = .enc ⟨0, 0, true⟩ := by decide
theorem test_decode_dec : decodeWord 0b1_00000000000000_0_000_00000_00_00_0010#32 = .dec f0 := by decide
theorem test_decode_keyexp : decodeWord 0b1_00000000000000_1_000_00000_00_00_0011#32 = .keyexp ⟨0, 0, true⟩ := by decide
theorem test_decode_sbox_ignores_reserved :
    decodeWord 0b1_11111111111111_0_111_00000_11_00_0100#32 = .sbox f0 := by decide
theorem test_decode_sboxinv : decodeWord 0b1_00000000000000_0_000_00000_00_00_0101#32 = .sboxinv f0 := by decide
theorem test_decode_lin : decodeWord 0b1_00000000000000_0_000_00000_00_10_0110#32 = .lin ⟨2, 0, false⟩ := by decide
theorem test_decode_rot16 : decodeWord 0b1_00000000000000_0_000_01111_00_00_0111#32 = .rot16 ⟨0, 15, false⟩ := by decide
theorem test_decode_rot32 : decodeWord 0b1_00000000000000_1_000_11100_00_00_1000#32 = .rot32 ⟨0, 28, true⟩ := by decide
theorem test_decode_m0 : decodeWord 0b1_00000000000000_0_000_00000_00_00_1001#32 = .m0 f0 := by decide
theorem test_decode_m1 : decodeWord 0b1_00000000000000_0_000_00000_00_00_1010#32 = .m1 f0 := by decide
theorem test_decode_cfg : decodeWord 0b0_00000000000000_1_000_00000_00_00_0110#32 = .cfg 6 ⟨0, 0, true⟩ := by decide
theorem test_decode_reserved0 : decodeWord 0b1_00000000000000_0_000_00000_00_00_0000#32 = .reserved0 f0 := by decide
theorem test_decode_reservedB : decodeWord 0b1_00000000000000_1_000_00000_00_00_1011#32 = .reservedB ⟨0, 0, true⟩ := by decide
theorem test_decode_reservedCF : decodeWord 0b1_00000000000000_0_000_10000_00_00_1111#32 = .reservedCF 15 ⟨0, 16, false⟩ := by decide

/-- A row of spec/opcode_table.json by its bits, through the bytes of the word. -/
theorem test_decodeTableWord : decodeTableWord 32 0x80000009 = some (.m0 f0) ∧ decodeTableWord 33 0x80000009 = none := by decide

/-- Encoding writes the word of the spec's example (42_linear.md rule R145). -/
theorem test_encode_lin : encode (.lin ⟨3, 0, true⟩) = 0x80010036#32 := by decide

/-! ### The commands (95_test_vectors.md V-KAT, V-CIPHER, V-KS1, V-SBOX, V-LIN, V-ROT, V-M) -/

theorem test_enc_known_answer :
    leaves ⟨0x3f09abf4, 0x00e3bd74, 0x03260def, 0xb7c53912⟩ (inFlight 1 f0 Block.zero keyW2 []) = true := by
  decide +kernel
theorem test_enc_zero_key :
    leaves ⟨0x8eeb0a67, 0xd1ed64d2, 0x79c1293a, 0xc168f1be⟩ (inFlight 1 f0 ⟨1, 0, 0, 0⟩ Key.zero []) = true := by
  decide +kernel
theorem test_dec_zero_block :
    leaves ⟨0x5a9aacbf, 0x3a8a9e0b, 0x6350b82e, 0x81c7f397⟩ (inFlight 2 f0 Block.zero keyW2 []) = true := by
  decide +kernel
theorem test_dec_writes_table :
    stepHas (fun t => readReg (.rk 3 1) t == 0x49bbf102#32) (inFlight 2 f0 Block.zero keyW2 []) = true := by
  decide +kernel
theorem test_keyexp_last_round_key :
    stepHas (fun t => t.rk[16] == ⟨0xa443053b, 0x69322a8e, 0xe8abfb4f, 0x41cf0ca8⟩ && t.dout == ⟨9, 9, 9, 9⟩)
      { inFlight 3 f0 Block.zero keyW2 [] with dout := ⟨9, 9, 9, 9⟩ } = true := by
  decide +kernel
theorem test_keyexp_zero_key :
    stepHas (fun t => t.rk[3] == ⟨0, 1, 0, 0x10000003⟩ && t.rk[2] == Block.zero)
      (inFlight 3 f0 Block.zero Key.zero []) = true := by
  decide +kernel
theorem test_sbox :
    leaves ⟨0x0f3c03cf, 0x00ff0ff0, 0x0303f3fc, 0x33333cc3⟩
      (inFlight 4 f0 ⟨0x0f0f0f0f, 0x00ff00ff, 0x0000ffff, 0x33333333⟩ Key.zero []) = true := by decide
theorem test_sboxinv :
    leaves ⟨0x0f3c0f3c, 0x03cf0cf3, 0x0330fccf, 0x330333fc⟩
      (inFlight 5 f0 ⟨0x0f0f0f0f, 0x00ff00ff, 0x0000ffff, 0x33333333⟩ Key.zero []) = true := by decide
theorem test_lin_class_0 :
    leaves ⟨0xa73ba0d9, 0xa4008480, 0x08010100, 0x5fe36ec6⟩
      (inFlight 6 ⟨0, 0, false⟩ ⟨0x12345678, 0x80008000, 0x00010000, 0xdeadbeef⟩ Key.zero []) = true := by decide
theorem test_lin_class_3 :
    leaves ⟨0x1a0d460a, 0x80c08180, 0x01010200, 0x04ac0aec⟩
      (inFlight 6 ⟨3, 0, false⟩ ⟨0x12345678, 0x80008000, 0x00010000, 0xdeadbeef⟩ Key.zero []) = true := by decide
theorem test_rot16_drops_the_upper_half :
    leaves ⟨0x00000003, 0, 0, 0⟩ (inFlight 7 ⟨0, 1, false⟩ ⟨0xabcd8001, 7, 7, 7⟩ Key.zero []) = true := by decide
theorem test_rot16_by_15 :
    leaves ⟨0x0000c000, 0, 0, 0⟩ (inFlight 7 ⟨0, 15, false⟩ ⟨0x00008001, 0, 0, 0⟩ Key.zero []) = true := by decide
theorem test_rot32_by_28 :
    leaves ⟨0x81234567, 0, 0, 0⟩ (inFlight 8 ⟨0, 28, false⟩ ⟨0x12345678, 7, 7, 7⟩ Key.zero []) = true := by decide
theorem test_rot32_by_31 :
    leaves ⟨0xc0000000, 0, 0, 0⟩ (inFlight 8 ⟨0, 31, false⟩ ⟨0x80000001, 0, 0, 0⟩ Key.zero []) = true := by decide
theorem test_m0 :
    leaves ⟨0x01020704, 0x39322f24, 2, 2⟩ (inFlight 9 f0 ⟨0x03020100, 0x07060504, 1, 0⟩ Key.zero []) = true := by decide
theorem test_m1 :
    leaves ⟨0x03040502, 0x43746552, 1, 0x10000001⟩
      (inFlight 10 f0 ⟨0x03020100, 0x07060504, 0, 1⟩ Key.zero []) = true := by decide

/-! ### Errors (95_test_vectors.md V-ERR) -/

theorem test_reservedB_raises_irq : ctrlWriteGives 0x8001000b 0x0001000b 0x00000104 true (idle []) = true := by decide
theorem test_reserved0 : ctrlWriteGives 0x80000000 0x00000000 0x00000104 false (idle []) = true := by decide
theorem test_reservedF_before_amount : ctrlWriteGives 0x8000100f 0x0000100f 0x00000104 false (idle []) = true := by decide
theorem test_rot16_refused : ctrlWriteGives 0x80001007 0x00001007 0x00000204 false (idle []) = true := by decide
theorem test_rot32_refused : ctrlWriteGives 0x80000008 0x00000008 0x00000204 false (idle []) = true := by decide
theorem test_cfg_checks_nothing : ctrlWriteGives 0x00001007 0x00001007 0x00000000 false (idle []) = true := by decide
theorem test_sbox_accepted : ctrlWriteGives 0x800000c4 0x00000004 0x00000001 false (idle []) = true := by decide
theorem test_sbox_absent : ctrlWriteGives 0x80000004 0x00000004 0x00000104 false (noPrim []) = true := by decide
theorem test_busy_ctrl_write :
    ctrlWriteGives 0x80000004 0x00000001 0x00000305 false (inFlight 1 f0 Block.zero Key.zero []) = true := by decide
theorem test_busy_key_write :
    stepHas (fun t => t.key == Key.zero && readReg .status t == 0x00000305#32)
      (busySbox [wr Params.default (.key 0) 1]) = true := by decide
theorem test_stale_done :
    ctrlWriteGives 0x8000000f 0x0000000f 0x00000106 false { idle [] with status := ⟨false, true, false, 0⟩ } = true := by
  decide
theorem test_cfg_raises_irq :
    ctrlWriteGives 0x00010000 0x00010000 0x00000002 true { idle [] with status := ⟨false, true, false, 0⟩ } = true := by
  decide
theorem test_status_write_clears_error :
    stepHas (fun t => readReg .status t == 0x00000000#32)
      { idle [wr Params.default .status 4] with status := ⟨false, false, true, 1⟩ } = true := by decide

/-! ### The bus (95_test_vectors.md V-BUS) -/

theorem test_read_id :
    stepHas (fun t => t.replies == [.read .ok 0x41524144#32]) (idle [rd Params.default .id]) = true := by decide
theorem test_read_last_round_key_word :
    stepHas (fun t => t.replies == [.read .ok 0]) (idle [rda Params.default 0x20C]) = true := by decide
theorem test_read_past_the_table :
    stepHas (fun t => t.replies == [.read .busErr 0]) (idle [rda Params.default 0x210]) = true := by decide
theorem test_read_misaligned :
    stepHas (fun t => t.replies == [.read .busErr 0]) (idle [rda Params.default 0x011]) = true := by decide
theorem test_write_dout_refused :
    stepHas (fun t => t.replies == [.write .busErr] && t.dout == Block.zero) (idle [wra Params.default 0x020 5]) = true := by
  decide
theorem test_write_ctrl_16_bit_refused :
    stepHas (fun t => t.replies == [.write .busErr] && t.ctrl == Ctrl.zero && t.status == Status.zero)
      (idle [.host (.write 0x004 .half 0x3 0x80000001)]) = true := by decide

/-! ### How the host's interface runs a word -/

theorem test_withFetchWord :
    stepHas (fun t => t.latch.op == 3 && t.status.busy) (State.reset.withFetchWord 32 0x80000003) = true := by decide

/-! ### The hypotheses of the statements are met

Each theorem names a statement and gives, for each of its clauses, values at the ends of the ranges that meet all the
clause's hypotheses together. -/

theorem witness_DecodeUndoesEncode :
    (Instr.enc f0).wellFormed = true ∧ (Instr.reservedCF 0xC f0).wellFormed = true ∧
      (Instr.reservedCF 0xF f0).wellFormed = true := by decide

theorem witness_ByteDecoderReadsOneWord :
    ([] : List Byte).length ≠ 4 ∧ ([0, 0, 0] : List Byte).length ≠ 4 ∧ ([0, 0, 0, 0, 0] : List Byte).length ≠ 4 := by decide

theorem witness_RotateByTheRestUndoes :
    (∃ a b : Amount 16, a.val = 1 ∧ b.val = 16 - a.val) ∧ (∃ a b : Amount 16, a.val = 15 ∧ b.val = 16 - a.val) ∧
    (∃ a b : Amount 32, a.val = 1 ∧ b.val = 32 - a.val) ∧ (∃ a b : Amount 32, a.val = 31 ∧ b.val = 32 - a.val) :=
  ⟨⟨⟨1, by decide⟩, ⟨15, by decide⟩, rfl, rfl⟩, ⟨⟨15, by decide⟩, ⟨1, by decide⟩, rfl, rfl⟩,
    ⟨⟨1, by decide⟩, ⟨31, by decide⟩, rfl, rfl⟩, ⟨⟨31, by decide⟩, ⟨1, by decide⟩, rfl, rfl⟩⟩

theorem witness_RotatesMoveEachBit : 0 < 16 ∧ 15 < 16 ∧ 0 < 32 ∧ 31 < 32 := by decide

theorem witness_SboxLanesFollowTheTable : 0 < 32 ∧ 31 < 32 := by decide

theorem witness_SboxFixedPointsAndNoInvolution :
    (31 < 32 ∧ lane ⟨0, 0x80000000, 0, 0x80000000⟩ 31 = 0x5) ∧ (0 < 32 ∧ lane ⟨0, 1, 0, 1⟩ 0 = 0x5) := by decide

theorem witness_KeyStatesTwoPerIteration : (1 % 2 = 1 ∧ 1 ≤ 15) ∧ (15 % 2 = 1 ∧ 15 ≤ 15) := by decide

theorem witness_RoundKeysAreAlternateHalves :
    (0 : Fin 17).val % 2 = 0 ∧ (16 : Fin 17).val % 2 = 0 ∧ (1 : Fin 17).val % 2 = 1 ∧ (15 : Fin 17).val % 2 = 1 := by decide

theorem witness_RoundKeyTableDeterminesTheKey : ∃ k k' : Key, expandKey k = expandKey k' := ⟨keyW2, keyW2, rfl⟩

theorem witness_ResetTurnClearsTheBlock : (busySbox [.reset, .sequencer]).agenda = .reset :: [.sequencer] := rfl

theorem witness_StepKeepsInvariant_busy :
    ∃ t, Inv (busySbox [.sequencer]) ∧ step (busySbox [.sequencer]) = .next t := ⟨_, by decide, rfl⟩

theorem witness_StepKeepsInvariant_error :
    ∃ t, Inv { idle [wr Params.default .ctrl 0x80000000] with status := ⟨false, true, true, 3⟩ } ∧
      step { idle [wr Params.default .ctrl 0x80000000] with status := ⟨false, true, true, 3⟩ } = .next t :=
  ⟨_, by decide, rfl⟩

theorem witness_InvariantStepAnswersNext :
    (Inv (busySbox [.sequencer]) ∧ PlatformKeepsRules (busySbox [.sequencer])) ∧
    (Inv (idle [.clockGate]) ∧ PlatformKeepsRules (idle [.clockGate])) ∧ (Inv (idle []) ∧ PlatformKeepsRules (idle [])) :=
  ⟨⟨by decide, trivial⟩, ⟨by decide, rfl⟩, ⟨by decide, trivial⟩⟩

theorem witness_RunReachesFinalState :
    Inv (busySbox [.reset, rd Params.default .id]) ∧
      ∀ t ∈ (busySbox [.reset, rd Params.default .id]).agenda, IsOrdinary t := by
  refine ⟨by decide, fun t h => ?_⟩
  simp only [busySbox, inFlight, idle, List.mem_cons, List.not_mem_nil, or_false] at h
  rcases h with rfl | rfl
  · exact .inr (.inr rfl)
  · exact .inl ⟨_, rfl⟩

theorem witness_RunReachesFinalState_after :
    (∃ t, Final (idle [.reset]) ∧ step (idle [.reset]) = .next t) ∧
    (∃ t, Final (idle [.clockGate, .reset]) ∧ step (idle [.clockGate, .reset]) = .next t ∧
      ¬ ResetNext (idle [.clockGate, .reset])) := by
  refine ⟨⟨_, by decide, rfl⟩, _, by decide, rfl, ?_⟩
  rintro ⟨rest, h⟩; cases h

/-- 70_reset_and_hazards.md rule R270: a reset still to come is after the run; an access still to come, or BUSY=1, is not. -/
theorem test_final :
    Final (idle [.reset]) ∧ ¬ Final (idle [.reset, rd Params.default .id]) ∧ ¬ Final (busySbox []) := by decide

theorem witness_StepRunsTheDecodedCommand :
    (idle [wr Params.default .ctrl 0x80000001]).agenda = wr (idle []).params .ctrl 0x80000001 :: [] ∧
    ((Instr.reservedCF 0xF f0).wellFormed = true ∧
      (idle [wr Params.default .ctrl (encode (.reservedCF 0xF f0)), .reset]).agenda =
        wr (idle []).params .ctrl (encode (.reservedCF 0xF f0)) :: [.reset]) ∧
    (idle [.clockGate]).agenda = .clockGate :: [] ∧ (busySbox []).agenda = [] := by decide

theorem witness_CommandWriteFollowsPseudocode :
    (busySbox [wr Params.default .ctrl 0xFFFFFFFF]).agenda = wr (busySbox []).params .ctrl 0xFFFFFFFF :: [] := rfl

theorem witness_CtrlStoresItsFields : (idle []).status.busy = false ∧ (busySbox []).status.busy = true := by decide

theorem witness_EncAndDecRun :
    (noPrim []).status.busy = false ∧
    ((inFlight 1 f0 (noPrim []).din (noPrim []).key [.reset]).status.busy = true ∧
      (inFlight 1 f0 (noPrim []).din (noPrim []).key [.reset]).latch = latched 0x1 f0 (noPrim [])) ∧
    ((inFlight 2 f0 (noPrim []).din (noPrim []).key [.reset]).status.busy = true ∧
      (inFlight 2 f0 (noPrim []).din (noPrim []).key [.reset]).latch = latched 0x2 f0 (noPrim [])) := by decide

theorem witness_KeyexpRuns :
    (noPrim []).status.busy = false ∧
    (inFlight 3 ⟨3, 31, true⟩ Block.zero Key.zero []).status.busy = true ∧
      (inFlight 3 ⟨3, 31, true⟩ Block.zero Key.zero []).latch = latched 0x3 ⟨3, 31, true⟩ (noPrim []) := by decide

theorem witness_SboxAndSboxinvRun :
    ((idle []).status.busy = false ∧ (idle []).params.hasPrimOps = true) ∧
    ((busySbox []).status.busy = true ∧ (busySbox []).latch = latched 0x4 f0 (idle [])) ∧
    ((inFlight 5 f0 Block.zero Key.zero []).status.busy = true ∧
      (inFlight 5 f0 Block.zero Key.zero []).latch = latched 0x5 f0 (idle [])) := by decide

theorem witness_LinRuns :
    ((idle []).status.busy = false ∧ (idle []).params.hasPrimOps = true ∧
      (0 : RoundClass).val = (⟨0, 0, false⟩ : Fields).rclass.toNat ∧
      (3 : RoundClass).val = (⟨3, 0, false⟩ : Fields).rclass.toNat) ∧
    ((inFlight 6 ⟨3, 0, false⟩ Block.zero Key.zero []).status.busy = true ∧
      (inFlight 6 ⟨3, 0, false⟩ Block.zero Key.zero []).latch = latched 0x6 ⟨3, 0, false⟩ (idle [])) := by decide

theorem witness_RotSixteenRuns :
    ((idle []).status.busy = false ∧ (idle []).params.hasPrimOps = true ∧
      (⟨1, by decide⟩ : Amount 16).val = (⟨0, 1, false⟩ : Fields).amt.toNat ∧
      (⟨15, by decide⟩ : Amount 16).val = (⟨0, 15, false⟩ : Fields).amt.toNat) ∧
    ((inFlight 7 ⟨0, 15, false⟩ Block.zero Key.zero []).status.busy = true ∧
      (inFlight 7 ⟨0, 15, false⟩ Block.zero Key.zero []).latch = latched 0x7 ⟨0, 15, false⟩ (idle [])) := by decide

theorem witness_RotThirtyTwoRuns :
    ((idle []).status.busy = false ∧ (idle []).params.hasPrimOps = true ∧
      (⟨1, by decide⟩ : Amount 32).val = (⟨0, 1, false⟩ : Fields).amt.toNat ∧
      (⟨31, by decide⟩ : Amount 32).val = (⟨0, 31, false⟩ : Fields).amt.toNat) ∧
    ((inFlight 8 ⟨0, 31, false⟩ Block.zero Key.zero []).status.busy = true ∧
      (inFlight 8 ⟨0, 31, false⟩ Block.zero Key.zero []).latch = latched 0x8 ⟨0, 31, false⟩ (idle [])) := by decide

theorem witness_MixersRun :
    ((idle []).status.busy = false ∧ (idle []).params.hasPrimOps = true) ∧
    ((inFlight 9 f0 Block.zero Key.zero []).status.busy = true ∧
      (inFlight 9 f0 Block.zero Key.zero []).latch = latched 0x9 f0 (idle [])) ∧
    ((inFlight 10 f0 Block.zero Key.zero []).status.busy = true ∧
      (inFlight 10 f0 Block.zero Key.zero []).latch = latched 0xA f0 (idle [])) := by decide

theorem witness_CfgStoresAndDoesNothingElse :
    (0x0#32).getLsbD 31 = false ∧ (0x7FFFFFFF#32).getLsbD 31 = false ∧ (idle []).status.busy = false ∧
      (busySbox []).status.busy = true := by decide

/-- The words issue OP 0x0, 0xB, 0xF and, without the primitive commands, 0x4 and 0xA. -/
theorem witness_IllegalOpIsRecorded :
    ((idle []).status.busy = false ∧ 12 ≤ (12#4).toNat ∧ 12 ≤ (15#4).toNat ∧ (noPrim []).status.busy = false ∧
      (noPrim []).params.hasPrimOps = false ∧ readReg .status (idle []) = 0#32) ∧
    (∀ v, (idle [wr Params.default .ctrl v]).agenda = wr (idle []).params .ctrl v :: [] ∧
      (noPrim [wr Params.default .ctrl v]).agenda = wr (noPrim []).params .ctrl v :: []) ∧
    ([0x80000000#32, 0x8000000B#32, 0x8000000F#32].all fun v => v.getLsbD 31 &&
      (v.extractLsb' 0 4 = 0#4 ∨ 11 ≤ (v.extractLsb' 0 4).toNat)) = true ∧
    ([0x80000004#32, 0x8000000A#32].all fun v => v.getLsbD 31 &&
      (4 ≤ (v.extractLsb' 0 4).toNat ∧ (v.extractLsb' 0 4).toNat ≤ 10)) = true :=
  ⟨by decide, fun _ => ⟨rfl, rfl⟩, by decide, by decide⟩

/-- The words issue ROT16 by 0, 16 and 31, and ROT32 by 0. -/
theorem witness_IllegalAmountIsRecorded :
    ((idle []).status.busy = false ∧ (idle []).params.hasPrimOps = true ∧ readReg .status (idle []) = 0#32 ∧
      ¬ (1 ≤ (0#5).toNat ∧ (0#5).toNat ≤ 15) ∧ ¬ (1 ≤ (16#5).toNat ∧ (16#5).toNat ≤ 15)) ∧
    (∀ v, (idle [wr Params.default .ctrl v]).agenda = wr (idle []).params .ctrl v :: []) ∧
    ([0x80000007#32, 0x80001007#32, 0x80001F07#32, 0x80000008#32].all fun v => v.getLsbD 31 &&
      ((v.extractLsb' 0 4 = 7#4 ∧ ¬ (1 ≤ (v.extractLsb' 8 5).toNat ∧ (v.extractLsb' 8 5).toNat ≤ 15)) ∨
        (v.extractLsb' 0 4 = 8#4 ∧ v.extractLsb' 8 5 = 0#5))) = true :=
  ⟨by decide, fun _ => rfl, by decide⟩

theorem witness_BusyWritesAreDiscarded :
    (busySbox []).status.busy = true ∧
    (∀ off ∈ [0x00C, 0x030, 0x3FF], off < 0x400 ∧ regAt off = none ∧
      (busySbox [wra Params.default off 0]).agenda = wra (busySbox []).params off 0 :: []) ∧
    (∀ r ∈ [Reg.ctrl, .din 3, .key 7, .status, .id, .dout 0, .rk 16 3],
      (busySbox [wr Params.default r 5]).agenda = wr (busySbox []).params r 5 :: []) ∧
    (busySbox [rd Params.default (.rk 16 3)]).agenda = rd (busySbox []).params (.rk 16 3) :: [] := by decide

theorem witness_CommandWriteFrame :
    (∃ t, exec (.enc f0) (idle []) = .next t) ∧ (∃ t, exec (.cfg 0xF f0) (busySbox []) = .next t) ∧
      (busySbox []).status.busy = true ∧ (Reg.id ≠ .ctrl ∧ Reg.id ≠ .status) ∧
      (Reg.rk 16 3 ≠ .ctrl ∧ Reg.rk 16 3 ≠ .status) := ⟨⟨_, rfl⟩, ⟨_, rfl⟩, rfl, by decide, by decide⟩

/-- A step that leaves a command in flight, and one state in flight for each OP, the amounts at their ends. -/
theorem witness_PerformIsTheDispatchTable_step :
    ∃ t, Inv (idle [wr Params.default .ctrl 0x8000000A]) ∧ step (idle [wr Params.default .ctrl 0x8000000A]) = .next t ∧
      t.status.busy = true := ⟨_, by decide, rfl, rfl⟩

theorem witness_PerformIsTheDispatchTable :
    ((0#4 : BitVec 4) = 0#4 ∧ 11 ≤ (11#4).toNat ∧ 11 ≤ (15#4).toNat) ∧
    (∀ op : BitVec 4, (inFlight op f0 Block.zero Key.zero []).status.busy = true ∧
      (inFlight op f0 Block.zero Key.zero []).latch.op = op) ∧
    (inFlight 6 ⟨3, 0, false⟩ Block.zero Key.zero []).latch.rclass.toNat = (3 : RoundClass).val ∧
    (inFlight 7 ⟨0, 15, false⟩ Block.zero Key.zero []).latch.amt.toNat = (⟨15, by decide⟩ : Amount 16).val ∧
    (inFlight 8 ⟨0, 31, false⟩ Block.zero Key.zero []).latch.amt.toNat = (⟨31, by decide⟩ : Amount 32).val := by decide

/-- The idle state, and the states in flight that stop, at the ends of their ranges. -/
theorem witness_SequencerOtherwiseWaitsOrStops :
    (idle []).status.busy = false ∧
    (∀ op : BitVec 4, (inFlight op f0 Block.zero Key.zero []).status.busy = true ∧
      (inFlight op f0 Block.zero Key.zero []).latch.op = op) ∧
    ((0#4 : BitVec 4) = 0#4 ∧ 11 ≤ (11#4).toNat ∧ 11 ≤ (15#4).toNat) ∧
    (inFlight 7 f0 Block.zero Key.zero []).latch.amt = 0#5 ∧
    16 ≤ (inFlight 7 ⟨0, 16, false⟩ Block.zero Key.zero []).latch.amt.toNat ∧
    (inFlight 8 f0 Block.zero Key.zero []).latch.amt = 0#5 := by decide

theorem witness_ResultDependsOnTheLatchAlone :
    ∃ s' u', (busySbox [.reset]).status.busy = true ∧
      { busySbox [] with din := ⟨1, 2, 3, 4⟩ }.status.busy = true ∧
      (busySbox [.reset]).latch = { busySbox [] with din := ⟨1, 2, 3, 4⟩ }.latch ∧
      takeTurn .sequencer (busySbox [.reset]) = .next s' ∧
      takeTurn .sequencer { busySbox [] with din := ⟨1, 2, 3, 4⟩ } = .next u' :=
  ⟨_, _, rfl, rfl, rfl, rfl, rfl⟩

theorem witness_EncResultIsFixedAtStart :
    (idle []).status.busy = false ∧ (∀ t ∈ [wr Params.default (.din 0) 5, clr Params.default], IsHost t) ∧
      (idle [wr Params.default .ctrl (encode (.enc f0)), wr Params.default (.din 0) 5, clr Params.default, .sequencer]).agenda =
        wr (idle []).params .ctrl (encode (.enc f0)) :: ([wr Params.default (.din 0) 5, clr Params.default] ++ [.sequencer]) := by
  refine ⟨rfl, fun t h => ?_, rfl⟩
  simp only [List.mem_cons, List.not_mem_nil, or_false] at h
  rcases h with rfl | rfl <;> exact ⟨_, rfl⟩

/-- Steps that answer a next state, for the statements over every step: an accepted START, a completion by each way,
a reset, and a write discarded while busy. -/
theorem witness_BusyChangesOnlyAsSpecified :
    (∃ t, step (idle [wr Params.default .ctrl 0x80000004]) = .next t ∧ t.status.busy = true) ∧
    (∃ t, step (busySbox [.sequencer]) = .next t ∧ t.status.busy = false) ∧
    (∃ t, step (busySbox []) = .next t ∧ t.status.busy = false) ∧
    (∃ t, step (busySbox [.reset]) = .next t ∧ t.status.busy = false) ∧
    (∃ t, step (busySbox [wr Params.default (.din 0) 1]) = .next t ∧ (busySbox []).status.busy = true ∧
      NextWrites (busySbox [wr Params.default (.din 0) 1]) (.din 0) 1) :=
  ⟨⟨_, rfl, rfl⟩, ⟨_, rfl, rfl⟩, ⟨_, rfl, rfl⟩, ⟨_, rfl, rfl⟩, ⟨_, rfl, rfl, [], rfl⟩⟩

theorem witness_DoneChangesOnlyAsSpecified :
    (∃ t, step (busySbox []) = .next t ∧ t.status.done = true) ∧
    (∃ t, step { idle [wr Params.default .status 2] with status := ⟨false, true, false, 0⟩ } = .next t ∧
      t.status.done = false) ∧
    (∃ t, step { idle [wr Params.default .ctrl 0x8000000F] with status := ⟨false, true, false, 0⟩ } = .next t ∧
      t.status.done = true) := ⟨⟨_, rfl, rfl⟩, ⟨_, rfl, rfl⟩, ⟨_, rfl, rfl⟩⟩

theorem witness_ErrorChangesOnlyAsSpecified :
    (∃ t, step (idle [wr Params.default .ctrl 0x80000000]) = .next t ∧ t.status.errcode = 1#4) ∧
    (∃ t, step (idle [wr Params.default .ctrl 0x80000008]) = .next t ∧ t.status.errcode = 2#4) ∧
    (∃ t, step (busySbox [wr Params.default (.key 7) 0]) = .next t ∧ t.status.errcode = 3#4) ∧
    (∃ t, step { idle [clr Params.default] with status := ⟨false, false, true, 2⟩ } = .next t ∧ t.status.err = false) ∧
    (∃ t, step { busySbox [] with status := ⟨true, false, true, 3⟩ } = .next t ∧ t.status.errcode = 3#4) :=
  ⟨⟨_, rfl, rfl⟩, ⟨_, rfl, rfl⟩, ⟨_, rfl, rfl⟩, ⟨_, rfl, rfl⟩, ⟨_, rfl, rfl⟩⟩

theorem witness_InputsChangeOnlyByHostWritesAndReset :
    (∃ t, step (idle [wr Params.default (.din 3) 5]) = .next t ∧ t.din = ⟨0, 0, 0, 5⟩) ∧
    (∃ t, step (idle [wr Params.default (.key 7) 5]) = .next t ∧ t.key = ⟨0, 0, 0, 0, 0, 0, 0, 5⟩) :=
  ⟨⟨_, rfl, rfl⟩, ⟨_, rfl, rfl⟩⟩

theorem witness_OutputsChangeOnlyByCompletionAndReset :
    ∃ t, step (inFlight 4 f0 ⟨0xFFFFFFFF, 0xFFFFFFFF, 0xFFFFFFFF, 0xFFFFFFFF⟩ Key.zero []) = .next t ∧
      t.dout = ⟨0xFFFFFFFF, 0, 0, 0xFFFFFFFF⟩ := ⟨_, rfl, by decide⟩

theorem witness_LatchIsWrittenByStartAndReadByCompletion :
    ∃ t, step (idle [wr Params.default .ctrl 0x80001F08]) = .next t ∧ ¬ ResetNext (idle [wr Params.default .ctrl 0x80001F08]) ∧
      (idle []).status.busy = false ∧ NextWrites (idle [wr Params.default .ctrl 0x80001F08]) .ctrl 0x80001F08 ∧
      Acceptable Params.default 0x80001F08 ∧
      ¬ ((idle [wr Params.default .ctrl 0x80001F08]).status.busy = true ∧
        SequencerNext (idle [wr Params.default .ctrl 0x80001F08])) := by
  refine ⟨_, rfl, ?_, rfl, ⟨[], rfl⟩, ?_, ?_⟩
  · rintro ⟨rest, h⟩; cases h
  · unfold Acceptable; decide
  · rintro ⟨h, -⟩; cases h

theorem witness_InterruptRisesOnlyWithItsCause :
    (∃ t, step (idle [wr Params.default .ctrl 0x80010000]) = .next t ∧
      irq (idle [wr Params.default .ctrl 0x80010000]) = false ∧ irq t = true) ∧
    (∃ t, step (inFlight 4 ⟨0, 0, true⟩ Block.zero Key.zero []) = .next t ∧
      irq (inFlight 4 ⟨0, 0, true⟩ Block.zero Key.zero []) = false ∧ irq t = true) ∧
    (∃ t, step { idle [wr Params.default .ctrl 0x00010000] with status := ⟨false, true, false, 0⟩ } = .next t ∧
      irq { idle [wr Params.default .ctrl 0x00010000] with status := ⟨false, true, false, 0⟩ } = false ∧ irq t = true) :=
  ⟨⟨_, rfl, rfl, rfl⟩, ⟨_, rfl, rfl, rfl⟩, ⟨_, rfl, rfl, rfl⟩⟩

theorem witness_RegisterMapIsTheTable :
    regAt 0x000 = some .id ∧ regAt 0x01C = some (.din 3) ∧ regAt 0x05C = some (.key 7) ∧ regAt 0x20C = some (.rk 16 3) := by
  decide

/-- Each ground of refusal at the ends of its range: sizes, lanes, alignment, holes and read-only registers. -/
theorem witness_RefusedAccessesChangeNothing :
    (∀ off ∈ [0x001, 0x00C, 0x00D, 0x03C, 0x060, 0x0FC, 0x210, 0x3FF], off < 0x400 ∧ (off % 4 ≠ 0 ∨ regAt off = none)) ∧
    (0x010 < 0x400 ∧ Size.byte ≠ .word ∧ Size.double ≠ .word) ∧ (0x7#4 ≠ 0xF#4) ∧
    (∀ off ∈ [0x000, 0x020, 0x02C, 0x100, 0x20C], off < 0x400 ∧ ∃ r, regAt off = some r ∧ writable r = false) ∧
    (idle [.host (.read ((idle []).params.base + 0x3FF) .byte)]).agenda =
      .host (.read ((idle []).params.base + 0x3FF) .byte) :: [] ∧
    (idle [.host (.write ((idle []).params.base + 0x000) .word 0xF 0x1234)]).agenda =
      .host (.write ((idle []).params.base + 0x000) .word 0xF 0x1234) :: [] := by
  refine ⟨by decide, by decide, by decide, fun off h => ?_, rfl, rfl⟩
  simp only [List.mem_cons, List.not_mem_nil, or_false] at h
  rcases h with rfl | rfl | rfl | rfl | rfl
  · exact ⟨by decide, .id, by decide, rfl⟩
  · exact ⟨by decide, .dout 0, by decide, rfl⟩
  · exact ⟨by decide, .dout 3, by decide, rfl⟩
  · exact ⟨by decide, .rk 0 0, by decide, rfl⟩
  · exact ⟨by decide, .rk 16 3, by decide, rfl⟩

theorem witness_ReadsHaveNoSideEffects :
    (busySbox [rd Params.default .status, rd Params.default .status]).agenda =
      rd (busySbox []).params .status :: rd (busySbox []).params .status :: [] := rfl

/-- Just below and just above a window that does not start at 0. -/
theorem witness_AccessesOutsideTheWindowAreNotDecoded :
    ∀ addr ∈ [0x3FF, 0x800], ∃ s : State, s.agenda = .host (.read addr .word) :: [] ∧
      (accessAddr (.read addr .word) < s.params.base ∨ s.params.base + 0x400 ≤ accessAddr (.read addr .word)) := by
  intro addr h
  refine ⟨{ idle [.host (.read addr .word)] with params := { Params.default with base := 0x400 } }, rfl, ?_⟩
  simp only [List.mem_cons, List.not_mem_nil, or_false] at h
  rcases h with rfl | rfl <;> decide

theorem witness_InputWritesReadBack :
    (idle []).status.busy = false ∧
    (idle [wr Params.default (.din 3) 5, rd Params.default (.din 3)]).agenda =
      wr (idle []).params (.din 3) 5 :: rd (idle []).params (.din 3) :: [] ∧
    (idle [wr Params.default (.key 7) 5, rd Params.default (.key 7)]).agenda =
      wr (idle []).params (.key 7) 5 :: rd (idle []).params (.key 7) :: [] := by decide

theorem witness_StatusLayoutAndWriteOneToClear :
    (0 < 32 ∧ 31 < 32) ∧ (busySbox [wr Params.default .status 6]).agenda = wr (busySbox []).params .status 6 :: [] := by
  decide

theorem witness_RegistersReadTheirWords : 0 < 32 ∧ 3 < 32 ∧ 7 < 32 ∧ 12 < 32 ∧ 16 < 32 ∧ 31 < 32 := by decide

theorem witness_NoStepDependsOnALatency :
    (∃ t, step (busySbox []) = .next t) ∧ step (inFlight 0 f0 Block.zero Key.zero []) = .fault .latchedReservedOp ∧
      step (busySbox [.clockGate]) = .refused .clockGatedWhileBusy := ⟨⟨_, rfl⟩, rfl, rfl⟩

theorem witness_PlatformRulesAreChecked :
    ((idle [.clockGate]).agenda = .clockGate :: [] ∧ (idle [.clockGate]).status.busy = false) ∧
    ((busySbox [.clockGate]).agenda = .clockGate :: [] ∧ (busySbox [.clockGate]).status.busy = true) ∧
    (idle [.accessDuringReset (.read 0 .word)]).agenda = .accessDuringReset (.read 0 .word) :: [] := by decide

end Sys2Proof.Tests
end

section
/-! PROOFS. What one step does, a case per cause (`StepCase`), and the statements of 10_state.md that follow. -/

namespace Sys2Proof.Proofs

open Sys2Proof.Machine Sys2Proof.Statements

/-! ### The next turn is one thing only -/

/-- The map of 20_memory.md rule R61 read both ways: a register is the one at its own offset. -/
theorem regAt_regOffset (r : Reg) : regAt (regOffset r) = some r := by
  cases r with
  | id | ctrl | status => rfl
  | din k | dout k | key k => revert k; decide
  | rk n k => revert n k; decide

theorem regOffset_lt (r : Reg) : regOffset r < 0x400 := by
  cases r <;> simp only [regOffset] <;> omega

theorem regOffset_injective : Function.Injective regOffset := fun r r' h =>
  Option.some.inj (by rw [← regAt_regOffset r, h, regAt_regOffset r'])

/-- An offset at which the map has a register is that register's own. -/
theorem eq_regOffset_of_regAt {off : Nat} {r : Reg} (h : regAt off = some r) : off = regOffset r := by
  unfold regAt at h
  split_ifs at h <;> cases h <;> simp only [regOffset] <;> omega

section NextTurn

variable {s : State} {r r' : Reg} {v v' : Word}

/-- A turn writes one register with one value. -/
theorem nextWrites_iff (h : NextWrites s r v) : NextWrites s r' v' ↔ r' = r ∧ v' = v := by
  obtain ⟨rest, h⟩ := h
  constructor
  · rintro ⟨rest', h'⟩
    rw [h] at h'
    simp only [wr, List.cons.injEq, Turn.host.injEq, Access.write.injEq] at h'
    obtain ⟨⟨hAddr, -, -, hv⟩, -⟩ := h'
    exact ⟨regOffset_injective (by omega), hv.symm⟩
  · rintro ⟨rfl, rfl⟩; exact ⟨rest, h⟩

theorem not_sequencerNext_of_nextWrites (h : NextWrites s r v) : ¬ SequencerNext s := by
  obtain ⟨rest, h⟩ := h
  simp [SequencerNext, h, wr]

theorem not_resetNext_of_nextWrites (h : NextWrites s r v) : ¬ ResetNext s := by
  obtain ⟨rest, h⟩ := h
  simp [ResetNext, h, wr]

theorem not_nextWrites_of_resetNext (h : ResetNext s) : ¬ NextWrites s r v :=
  fun hw => not_resetNext_of_nextWrites hw h

theorem not_nextWrites_of_sequencerNext (h : SequencerNext s) : ¬ NextWrites s r v :=
  fun hw => not_sequencerNext_of_nextWrites hw h

theorem not_sequencerNext_of_resetNext (h : ResetNext s) : ¬ SequencerNext s := by
  obtain ⟨rest, h⟩ := h
  simp [SequencerNext, h]

theorem not_resetNext_of_sequencerNext (h : SequencerNext s) : ¬ ResetNext s :=
  fun hr => not_sequencerNext_of_resetNext hr h

end NextTurn

/-! ### A command word on its bits -/

/-- OP legality (30_encoding.md rules R83 and R84) as ranges of the field. -/
theorem opPresent_iff (p : Params) (op : BitVec 4) :
    opPresent p op = true ↔
      1 ≤ op.toNat ∧ op.toNat ≤ 3 ∨ p.hasPrimOps = true ∧ 4 ≤ op.toNat ∧ op.toNat ≤ 10 := by
  unfold opPresent
  generalize p.hasPrimOps = b
  revert op b
  decide

/-- AMT legality (30_encoding.md rule R86) as ranges of the field. -/
theorem amtLegal_iff (op : BitVec 4) (amt : BitVec 5) :
    amtLegal op amt = true ↔
      (op = 7#4 → 1 ≤ amt.toNat ∧ amt.toNat ≤ 15) ∧ (op = 8#4 → 1 ≤ amt.toNat) := by
  revert op amt
  decide

/-- What 30_encoding.md rule R93 accepts is what the model's checks let through. -/
theorem acceptable_iff (p : Params) (v : Word) :
    Acceptable p v ↔
      wordStart v = true ∧ opPresent p (wordOp v) = true ∧ amtLegal (wordOp v) (wordFields v).amt = true := by
  rw [opPresent_iff, amtLegal_iff]
  rfl

theorem exec_instr (c : Cmd) (f : Fields) (s : State) : exec (c.instr f) s = .next (issue (opcode c) f s) := by
  cases c <;> rfl

theorem exec_reservedInstr (op : BitVec 4) (f : Fields) (s : State) :
    exec (reservedInstr op f) s = .next (issue op f s) := by
  unfold reservedInstr
  split_ifs with h0 hB
  · subst h0; rfl
  · subst hB; rfl
  · rfl

/-- The decoder loses nothing `CtrlWrite` looks at: a word with START = 1 is issued with its own OP and fields. -/
theorem exec_decodeWord_of_start {v : Word} (h : wordStart v = true) (s : State) :
    exec (decodeWord v) s = .next (issue (wordOp v) (wordFields v) s) := by
  unfold decodeWord
  rw [if_pos h]
  cases hc : cmdOf (wordOp v) with
  | some c => rw [opcode_of_cmdOf hc]; exact exec_instr c _ s
  | none => exact exec_reservedInstr _ _ s

theorem exec_decodeWord_of_not_start {v : Word} (h : wordStart v = false) (s : State) :
    exec (decodeWord v) s = .next (configure (wordOp v) (wordFields v) s) := by
  simp [decodeWord, h, exec, execCfg]

/-! ### One step, case by case -/

/-- `s` when its next turn, a host write, has been taken off the agenda and answered `OK`. -/
abbrev answered (s : State) : State := reply (.write .ok) { s with agenda := s.agenda.tail }

/-- The registers a host write may not change while BUSY=1 (60_exceptions.md rule R223). -/
abbrev Guarded (r : Reg) : Prop := r = .ctrl ∨ (∃ k, r = .din k) ∨ ∃ k, r = .key k

theorem writable_of_guarded {r : Reg} (h : Guarded r) : writable r = true := by
  rcases h with rfl | ⟨k, rfl⟩ | ⟨k, rfl⟩ <;> rfl

/-- What a step from `s` to `t` can be, each case with its cause and its whole effect. -/
inductive StepCase (s t : State) : Prop
  /-- A reset. -/
  | reset (hr : ResetNext s) (ht : t = resetBlock { s with agenda := s.agenda.tail })
  /-- The sequencer completes the command in flight. -/
  | completion (hs : SequencerNext s) (hb : s.status.busy = true) (dout : Block) (rk : RoundKeyTable)
      (ht : t = finishBoth dout rk { s with agenda := s.agenda.tail })
  /-- No register changes: nothing reset, owed or written. -/
  | quiet (hr : ¬ ResetNext s) (hs : ¬ (s.status.busy = true ∧ SequencerNext s))
      (hw : ∀ r v, writable r = true → ¬ NextWrites s r v) (replies : List Reply)
      (ht : t = { s with agenda := s.agenda.tail, replies := replies })
  /-- A write of STATUS, busy or not. -/
  | statusWrite (v : Word) (hw : NextWrites s .status v) (ht : t = writeStatus v (answered s))
  /-- A write discarded with BUSY_WRITE. -/
  | busyWrite (r : Reg) (v : Word) (hw : NextWrites s r v) (hg : Guarded r) (hb : s.status.busy = true)
      (ht : t = raiseError .busyWrite (answered s))
  /-- A write of DINk while idle. -/
  | dinWrite (k : Fin 4) (v : Word) (hw : NextWrites s (.din k) v) (hb : s.status.busy = false)
      (ht : t = { answered s with din := setBlockWord s.din k v })
  /-- A write of KEYk while idle. -/
  | keyWrite (k : Fin 8) (v : Word) (hw : NextWrites s (.key k) v) (hb : s.status.busy = false)
      (ht : t = { answered s with key := setKeyWord s.key k v })
  /-- A CTRL write with START = 0 while idle. -/
  | configured (v : Word) (hw : NextWrites s .ctrl v) (hb : s.status.busy = false) (hv : wordStart v = false)
      (ht : t = storeCtrl (wordOp v) (wordFields v) (answered s))
  /-- A START refused with ILLEGAL_OP. -/
  | refusedOp (v : Word) (hw : NextWrites s .ctrl v) (hb : s.status.busy = false) (hv : wordStart v = true)
      (ho : opPresent s.params (wordOp v) = false)
      (ht : t = raiseError .illegalOp (storeCtrl (wordOp v) (wordFields v) (answered s)))
  /-- A START refused with ILLEGAL_AMT. -/
  | refusedAmt (v : Word) (hw : NextWrites s .ctrl v) (hb : s.status.busy = false) (hv : wordStart v = true)
      (ho : opPresent s.params (wordOp v) = true) (ha : amtLegal (wordOp v) (wordFields v).amt = false)
      (ht : t = raiseError .illegalAmt (storeCtrl (wordOp v) (wordFields v) (answered s)))
  /-- An accepted START. -/
  | accepted (v : Word) (hw : NextWrites s .ctrl v) (hb : s.status.busy = false) (hv : Acceptable s.params v)
      (ht : t = accept (wordOp v) (wordFields v) (storeCtrl (wordOp v) (wordFields v) (answered s)))

/-- The step that takes an accepted write is the register write. -/
theorem step_of_nextWrites {s : State} {r : Reg} {v : Word} (h : NextWrites s r v) (hr : writable r = true) :
    step s = writeReg r v (answered s) := by
  obtain ⟨rest, h⟩ := h
  have hTarget : writeTarget (regOffset r) .word 0xF#4 = some r :=
    writeTarget_eq_some.mpr ⟨rfl, rfl, regAt_regOffset r, hr⟩
  simp [step, h, wr, takeTurn, busAccess, accessAddr, windowOffset_base_add _ (regOffset_lt r), accessAt,
    hTarget, answered]

/-- The cases of a CTRL write. -/
theorem stepCase_of_ctrlWrite {s t : State} {v : Word} (hw : NextWrites s .ctrl v)
    (h : exec (decodeWord v) (answered s) = .next t) : StepCase s t := by
  cases hv : wordStart v with
  | false =>
    rw [exec_decodeWord_of_not_start hv] at h
    obtain rfl := Host.Outcome.next.inj h
    rcases configure_cases (wordOp v) (wordFields v) (answered s) with ⟨hb, e⟩ | ⟨hb, e⟩ <;> rw [e]
    · exact .busyWrite .ctrl v hw (.inl rfl) hb rfl
    · exact .configured v hw hb hv rfl
  | true =>
    rw [exec_decodeWord_of_start hv] at h
    obtain rfl := Host.Outcome.next.inj h
    rcases issue_cases (wordOp v) (wordFields v) (answered s) with
      ⟨hb, e⟩ | ⟨hb, ho, e⟩ | ⟨hb, ho, ha, e⟩ | ⟨hb, ho, ha, e⟩ <;> rw [e]
    · exact .busyWrite .ctrl v hw (.inl rfl) hb rfl
    · exact .refusedOp v hw hb hv ho rfl
    · exact .refusedAmt v hw hb hv ho ha rfl
    · exact .accepted v hw hb ((acceptable_iff _ v).mpr ⟨hv, ho, ha⟩) rfl

/-- The cases of an accepted host write. -/
theorem stepCase_of_nextWrites {s t : State} {r : Reg} {v : Word} (hw : NextWrites s r v)
    (hr : writable r = true) (h : step s = .next t) : StepCase s t := by
  rw [step_of_nextWrites hw hr] at h
  cases r with
  | ctrl => exact stepCase_of_ctrlWrite hw h
  | status => exact .statusWrite v hw (Host.Outcome.next.inj h).symm
  | din k =>
    obtain rfl := Host.Outcome.next.inj h
    rcases writeDin_cases k v (answered s) with ⟨hb, e⟩ | ⟨hb, e⟩ <;> rw [e]
    · exact .busyWrite _ v hw (.inr (.inl ⟨k, rfl⟩)) hb rfl
    · exact .dinWrite k v hw hb rfl
  | key k =>
    obtain rfl := Host.Outcome.next.inj h
    rcases writeKey_cases k v (answered s) with ⟨hb, e⟩ | ⟨hb, e⟩ <;> rw [e]
    · exact .busyWrite _ v hw (.inr (.inr ⟨k, rfl⟩)) hb rfl
    · exact .keyWrite k v hw hb rfl
  | id | dout k | rk n k => cases hr

/-- Every step that answers a next state is one of the cases. -/
theorem stepCase_of_step {s t : State} (h : step s = .next t) : StepCase s t := by
  by_cases hw : ∃ r v, writable r = true ∧ NextWrites s r v
  · obtain ⟨r, v, hr, hw⟩ := hw
    exact stepCase_of_nextWrites hw hr h
  have hw : ∀ r v, writable r = true → ¬ NextWrites s r v := fun r v hr hn => hw ⟨r, v, hr, hn⟩
  rcases step_cases h with ⟨rest, ha, ht⟩ | ⟨ha, ⟨hb, ht⟩ | ⟨hb, hc⟩⟩ | ⟨rest, ha, hb, ht⟩ |
    ⟨a, rest, ha, ⟨replies, ht⟩ | ⟨off, r, v, rfl, hr, hwr, -⟩⟩
  · exact .reset ⟨rest, ha⟩ (by rw [ht, ha]; rfl)
  · have hs : SequencerNext s := ha.imp_right fun e => ⟨_, e⟩
    exact .quiet (not_resetNext_of_sequencerNext hs) (by simp [hb]) hw s.replies ht
  · obtain ⟨dout, rk, ht⟩ := complete_next hc
    exact .completion (ha.imp_right fun e => ⟨_, e⟩) hb dout rk ht
  · exact .quiet (by simp [ResetNext, ha]) (by simp [hb]) hw s.replies (by rw [ht, ha]; rfl)
  · exact .quiet (by simp [ResetNext, ha]) (by simp [SequencerNext, ha]) hw replies (by rw [ht, ha]; rfl)
  · exact absurd ⟨rest, by rw [ha, eq_regOffset_of_regAt hr]; rfl⟩ (hw r v hwr)

/-! ### BUSY, DONE and ERR (10_state.md rules R30 to R33) -/

/-- Settles O45: in each case of a step, BUSY after it and the one cause that case has. -/
theorem busyChangesOnlyAsSpecified : Obligations.BusyChangesOnlyAsSpecified := by
  intro s t h
  cases stepCase_of_step h with
  | reset hr ht => simp [ht, hr, not_nextWrites_of_resetNext hr, Status.zero]
  | completion hs hb dout rk ht => simp [ht, hs, hb, not_nextWrites_of_sequencerNext hs, finishBoth]
  | quiet hr hs hw replies ht =>
    have hs' : s.status.busy = true → ¬ SequencerNext s := fun hb hn => hs ⟨hb, hn⟩
    simp +contextual [ht, hr, hw .ctrl _ rfl, hs']
  | statusWrite v hw ht =>
    simp [ht, nextWrites_iff hw, not_sequencerNext_of_nextWrites hw, not_resetNext_of_nextWrites hw]
  | busyWrite r v hw hg hb ht =>
    simp [ht, hb, not_sequencerNext_of_nextWrites hw, not_resetNext_of_nextWrites hw]
  | dinWrite k v hw hb ht | keyWrite k v hw hb ht => simp [ht, hb, nextWrites_iff hw]
  | configured v hw hb hv ht | refusedOp v hw hb hv ho ht | refusedAmt v hw hb hv ho ha ht =>
    simp [nextWrites_iff hw, acceptable_iff, *]
  | accepted v hw hb hv ht => simp [ht, hb, nextWrites_iff hw, hv]

/-- Settles O46: in each case of a step, DONE after it and the one cause that case has. -/
theorem doneChangesOnlyAsSpecified : Obligations.DoneChangesOnlyAsSpecified := by
  intro s t h
  cases stepCase_of_step h with
  | reset hr ht => simp [ht, hr, not_sequencerNext_of_resetNext hr, Status.zero]
  | completion hs hb dout rk ht => simp [ht, hs, hb, finishBoth]
  | quiet hr hs hw replies ht => simp [ht, hr, hs, hw .ctrl _ rfl, hw .status _ rfl]
  | statusWrite v hw ht =>
    simp [ht, nextWrites_iff hw, not_sequencerNext_of_nextWrites hw, not_resetNext_of_nextWrites hw]
  | busyWrite r v hw hg hb ht =>
    have hr : r ≠ .status := by rcases hg with rfl | ⟨k, rfl⟩ | ⟨k, rfl⟩ <;> simp
    simp [ht, hb, nextWrites_iff hw, hr.symm, not_sequencerNext_of_nextWrites hw, not_resetNext_of_nextWrites hw]
  | dinWrite k v hw hb ht | keyWrite k v hw hb ht =>
    simp [ht, hb, nextWrites_iff hw, not_resetNext_of_nextWrites hw]
  | configured v hw hb hv ht | refusedOp v hw hb hv ho ht | refusedAmt v hw hb hv ho ha ht =>
    simp [nextWrites_iff hw, not_resetNext_of_nextWrites hw, acceptable_iff, *]
  | accepted v hw hb hv ht => simp [ht, hb, nextWrites_iff hw, hv]

/-- Settles O47: each case of a step falls under its own cause, and under no other. -/
theorem errorChangesOnlyAsSpecified : Obligations.ErrorChangesOnlyAsSpecified := by
  intro s t h
  cases stepCase_of_step h with
  | refusedOp v hw hb hv ho ht => exact .inl ⟨⟨v, hb, hw, hv, ho⟩, by simp [ht, errorCode]⟩
  | refusedAmt v hw hb hv ho ha ht => exact .inr (.inl ⟨⟨v, hb, hw, hv, ho, ha⟩, by simp [ht, errorCode]⟩)
  | busyWrite r v hw hg hb ht => exact .inr (.inr (.inl ⟨⟨r, v, hb, hw, hg⟩, by simp [ht, errorCode]⟩))
  | reset hr ht => exact .inr (.inr (.inr (.inl ⟨.inr hr, by simp [ht, Status.zero]⟩)))
  | statusWrite v hw ht =>
    cases hv : v.getLsbD 2 with
    | true => exact .inr (.inr (.inr (.inl ⟨.inl ⟨v, hw, hv⟩, by simp [ht, hv]⟩)))
    | false =>
      refine .inr (.inr (.inr (.inr ?_)))
      simp [-BitVec.getLsbD_eq_getElem, ht, hv, nextWrites_iff hw, not_resetNext_of_nextWrites hw]
  | completion hs hb dout rk ht =>
    refine .inr (.inr (.inr (.inr ?_)))
    simp [ht, finishBoth, not_nextWrites_of_sequencerNext hs, not_resetNext_of_sequencerNext hs]
  | quiet hr hs hw replies ht =>
    refine .inr (.inr (.inr (.inr ?_)))
    have hGuarded : ¬ ∃ r v, s.status.busy = true ∧ NextWrites s r v ∧ Guarded r :=
      fun ⟨r, v, _, hn, hg⟩ => hw r v (writable_of_guarded hg) hn
    exact ⟨by simp [hw .ctrl _ rfl], hGuarded, by simp [hw .status _ rfl], hr, by simp [ht]⟩
  | dinWrite k v hw hb ht | keyWrite k v hw hb ht =>
    refine .inr (.inr (.inr (.inr ?_)))
    simp [ht, hb, nextWrites_iff hw, not_resetNext_of_nextWrites hw]
  | configured v hw hb hv ht =>
    refine .inr (.inr (.inr (.inr ?_)))
    have hv' : v.getLsbD 31 = false := hv
    simp [-BitVec.getLsbD_eq_getElem, ht, hb, hv', nextWrites_iff hw, not_resetNext_of_nextWrites hw]
  | accepted v hw hb hv ht =>
    refine .inr (.inr (.inr (.inr ?_)))
    simp [ht, hb, hv, nextWrites_iff hw, not_resetNext_of_nextWrites hw]

/-! ### The interrupt line (10_state.md rule R39) -/

/-- IE is set by a CTRL write with bit 16 set, and by nothing else. -/
theorem ie_of_step {s t : State} (h : step s = .next t) (hie : t.ctrl.ie = true) :
    s.ctrl.ie = true ∨ ∃ v, NextWrites s .ctrl v ∧ v.getLsbD 16 = true := by
  cases stepCase_of_step h with
  | reset hr ht => simp [ht, Ctrl.zero] at hie
  | configured v hw hb hv ht | refusedOp v hw hb hv ho ht | refusedAmt v hw hb hv ho ha ht
  | accepted v hw hb hv ht =>
    subst ht; exact .inr ⟨v, hw, hie⟩
  | completion hs hb dout rk ht | quiet hr hs hw replies ht | statusWrite v hw ht
  | busyWrite r v hw hg hb ht | dinWrite k v hw hb ht | keyWrite k v hw hb ht =>
    subst ht; exact .inl hie

/-- Settles O51: if neither DONE nor ERR was set by the step, one of them stood before it, so IE was 0 and rose. -/
theorem interruptRisesOnlyWithItsCause : Obligations.InterruptRisesOnlyWithItsCause := by
  intro s t h
  refine ⟨by simp [irq], fun hs ht => ?_⟩
  obtain ⟨hie, hflag⟩ : t.ctrl.ie = true ∧ (t.status.done = true ∨ t.status.err = true) := by
    simpa [irq] using ht
  cases hsie : s.ctrl.ie with
  | true =>
    obtain ⟨hdone, herr⟩ : s.status.done = false ∧ s.status.err = false := by simpa [irq, hsie] using hs
    exact hflag.elim (fun hd => .inl ⟨hdone, hd⟩) fun he => .inr (.inl ⟨herr, he⟩)
  | false => exact .inr (.inr ⟨rfl, (ie_of_step h hie).resolve_left (by simp [hsie])⟩)

/-! ### LATCH (10_state.md rule R38) -/

/-- An operation of the block that never looks at LATCH: whatever LATCH holds, its answer differs in LATCH only. -/
def LatchBlind (f : State → Result) : Prop :=
  ∀ s t : State, f s = .next t → ∀ l : Latch, ∃ l' : Latch, f { s with latch := l } = .next { t with latch := l' }

theorem latchBlind_next {g : State → State}
    (hg : ∀ (s : State) (l : Latch), ∃ l' : Latch, g { s with latch := l } = { g s with latch := l' }) :
    LatchBlind fun s => .next (g s) := by
  intro s t h l
  obtain rfl := Host.Outcome.next.inj h
  exact (hg s l).imp fun _ => congrArg _

/-- A write that is discarded while busy (60_exceptions.md rule R223) is as blind to LATCH as what it does while idle. -/
theorem latchBlind_unless_busy {g : State → State}
    (hg : ∀ (s : State) (l : Latch), ∃ l' : Latch, g { s with latch := l } = { g s with latch := l' }) :
    LatchBlind fun s => .next (if s.status.busy then raiseError .busyWrite s else g s) := by
  refine latchBlind_next fun s l => ?_
  dsimp only
  split_ifs
  · exact ⟨l, rfl⟩
  · exact hg s l

theorem latchBlind_issue (op : BitVec 4) (f : Fields) : LatchBlind fun s => .next (issue op f s) := by
  refine latchBlind_unless_busy fun s l => ?_
  dsimp only
  split_ifs <;> exact ⟨_, rfl⟩

theorem latchBlind_configure (op : BitVec 4) (f : Fields) : LatchBlind fun s => .next (configure op f s) :=
  latchBlind_unless_busy fun _ l => ⟨l, rfl⟩

theorem latchBlind_exec_decodeWord (v : Word) : LatchBlind (exec (decodeWord v)) := by
  cases hv : wordStart v with
  | true => rw [funext (exec_decodeWord_of_start hv)]; exact latchBlind_issue _ _
  | false => rw [funext (exec_decodeWord_of_not_start hv)]; exact latchBlind_configure _ _

theorem latchBlind_writeReg (r : Reg) (v : Word) : LatchBlind (writeReg r v) := by
  cases r with
  | ctrl => exact latchBlind_exec_decodeWord v
  | din k | key k => exact latchBlind_unless_busy fun _ l => ⟨l, rfl⟩
  | status | id | dout k | rk n k => exact latchBlind_next fun _ l => ⟨l, rfl⟩

/-- LATCH is no register of the window. -/
theorem readReply_latch (off : Nat) (size : Size) (s : State) (l : Latch) :
    readReply off size { s with latch := l } = readReply off size s := by
  have hRead : ∀ r, readReg r { s with latch := l } = readReg r s := fun r => by cases r <;> rfl
  simp only [readReply, hRead]

theorem latchBlind_accessAt (off : Nat) (a : Access) : LatchBlind (accessAt off a) := by
  cases a with
  | read addr size =>
    refine latchBlind_next fun s l => ⟨l, ?_⟩
    rw [readReply_latch]
    rfl
  | write addr size lanes v =>
    intro s t h l
    simp only [accessAt] at h ⊢
    cases hTarget : writeTarget off size lanes with
    | some r => rw [hTarget] at h; exact latchBlind_writeReg r v _ _ h l
    | none => rw [hTarget] at h; obtain rfl := Host.Outcome.next.inj h; exact ⟨l, rfl⟩

theorem latchBlind_busAccess (a : Access) : LatchBlind (busAccess a) := by
  intro s t h l
  simp only [busAccess] at h ⊢
  cases hOff : windowOffset s.params (accessAddr a) with
  | some off => rw [hOff] at h; exact latchBlind_accessAt off a _ _ h l
  | none => rw [hOff] at h; obtain rfl := Host.Outcome.next.inj h; exact ⟨l, rfl⟩

theorem latchBlind_clockGateTurn : LatchBlind clockGateTurn := by
  intro s t h l
  simp only [clockGateTurn] at h ⊢
  split_ifs at h ⊢
  obtain rfl := Host.Outcome.next.inj h
  exact ⟨l, rfl⟩

/-- While BUSY=0 the sequencer has nothing to complete and LATCH nothing to say. -/
theorem sequencerTurn_latch_of_idle {s t : State} (hb : s.status.busy = false) (h : sequencerTurn s = .next t)
    (l : Latch) : sequencerTurn { s with latch := l } = .next { t with latch := l } := by
  simp only [sequencerTurn, hb, Bool.false_eq_true, if_false, Host.Outcome.next.injEq] at h ⊢
  rw [h]

theorem step_of_agenda_nil {s : State} (h : s.agenda = []) : step s = sequencerTurn s := by
  simp only [step, h]

theorem step_of_agenda_cons {s : State} {turn : Turn} {rest : List Turn} (h : s.agenda = turn :: rest) :
    step s = takeTurn turn { s with agenda := rest } := by
  simp only [step, h]

/-- Only a completion reads LATCH. -/
theorem step_latch {s t : State} (h : step s = .next t) (hc : ¬ (s.status.busy = true ∧ SequencerNext s))
    (l : Latch) : ∃ l' : Latch, step { s with latch := l } = .next { t with latch := l' } := by
  have hIdle (hs : SequencerNext s) : s.status.busy = false := by simpa [hs] using hc
  by_cases ha : s.agenda = []
  · rw [step_of_agenda_nil ha] at h
    rw [step_of_agenda_nil (s := { s with latch := l }) ha]
    exact ⟨l, sequencerTurn_latch_of_idle (hIdle (.inl ha)) h l⟩
  · obtain ⟨turn, rest, ha⟩ := List.exists_cons_of_ne_nil ha
    rw [step_of_agenda_cons ha] at h
    rw [step_of_agenda_cons (s := { s with latch := l }) ha]
    cases turn with
    | host a => exact latchBlind_busAccess a _ _ h l
    | sequencer =>
      have hb : s.status.busy = false := hIdle (.inr ⟨rest, ha⟩)
      exact ⟨l, sequencerTurn_latch_of_idle (s := { s with agenda := rest }) hb h l⟩
    | reset => exact latchBlind_next (g := resetBlock) (fun _ _ => ⟨_, rfl⟩) _ _ h l
    | clockGate => exact latchBlind_clockGateTurn _ _ h l
    | accessDuringReset a => cases h

/-- An accepted START loads LATCH with the written fields, DIN and KEY. -/
theorem latch_of_accepted {s t : State} {v : Word} (h : step s = .next t) (hb : s.status.busy = false)
    (hw : NextWrites s .ctrl v) (hv : Acceptable s.params v) :
    t.latch = ⟨v.extractLsb' 0 4, v.extractLsb' 4 2, v.extractLsb' 8 5, s.din, s.key⟩ := by
  obtain ⟨hStart, ho, ha⟩ := (acceptable_iff _ _).mp hv
  rw [step_of_nextWrites hw rfl] at h
  simp only [writeReg, exec_decodeWord_of_start hStart, Host.Outcome.next.injEq] at h
  have hAccept : issue (wordOp v) (wordFields v) (answered s) =
      accept (wordOp v) (wordFields v) (storeCtrl (wordOp v) (wordFields v) (answered s)) := by
    simp [issue, hb, ho, ha]
  rw [← h, hAccept]
  rfl

/-- A step that is neither a reset nor an accepted START leaves LATCH as it was. -/
theorem latch_of_step {s t : State} (h : step s = .next t) :
    ResetNext s ∨ (s.status.busy = false ∧ ∃ v, NextWrites s .ctrl v ∧ Acceptable s.params v) ∨
      t.latch = s.latch := by
  cases stepCase_of_step h with
  | reset hr ht => exact .inl hr
  | accepted v hw hb hv ht => exact .inr (.inl ⟨hb, v, hw, hv⟩)
  | completion hs hb dout rk ht | quiet hr hs hw replies ht | statusWrite v hw ht
  | busyWrite r v hw hg hb ht | dinWrite k v hw hb ht | keyWrite k v hw hb ht
  | configured v hw hb hv ht | refusedOp v hw hb hv ho ht | refusedAmt v hw hb hv ho ha ht =>
    subst ht; exact .inr (.inr rfl)

/-- Settles O50: `latch_of_step` and `latch_of_accepted` for the writes of LATCH, `step_latch` for its reads. -/
theorem latchIsWrittenByStartAndReadByCompletion : Obligations.LatchIsWrittenByStartAndReadByCompletion := by
  intro s t h
  refine ⟨fun hr => ?_, fun v hb hw hv => latch_of_accepted h hb hw hv, step_latch h⟩
  rcases latch_of_step h with hr' | ⟨hb, v, hw, hv⟩ | he
  · exact absurd hr' hr
  · exact .inr ⟨hb, v, hw, hv, latch_of_accepted h hb hw hv⟩
  · exact .inl he

/-! ### The state after reset (10_state.md rule R41) -/

/-- Round key 3 of the zero key already holds round counters (95_test_vectors.md V-KS3), so `expand_key` of the zero
key is not the zero table. -/
theorem roundKey_three_zero_ne : roundKey Key.zero 3 ≠ Block.zero := by decide

/-- Settles O20, register by register. -/
theorem resetStateReadsAsSpecified : Obligations.ResetStateReadsAsSpecified := by
  refine ⟨fun r => ?_, rfl, fun h => ?_⟩
  · cases r with
    | id | ctrl | status => rfl
    | din k | dout k | key k => revert k; decide
    | rk n k =>
      have hWord : ∀ k, blockWord Block.zero k = 0#32 := by decide
      simpa [readReg, State.reset] using hWord k
  · have h3 := congrArg (fun table : RoundKeyTable => table[3]) h
    simp only [State.reset, expandKey, Vector.getElem_replicate, Vector.getElem_ofFn] at h3
    exact roundKey_three_zero_ne h3.symm

end Sys2Proof.Proofs
end

section
/-! PROOFS. 20_memory.md: blocks, keys and the round-key table as bytes, and what the bus reads and refuses. -/

namespace Sys2Proof.Proofs

open Sys2Proof.Machine Sys2Proof.Statements

/-! ### One word as four bytes (20_memory.md rule R67) -/

/-- Bit `i` of a word is bit `i mod 8` of the byte that holds it. -/
theorem getLsbD_wordOfBytes (b0 b1 b2 b3 : Byte) (i : Nat) :
    (wordOfBytes b0 b1 b2 b3).getLsbD i =
      if i < 8 then b0.getLsbD i
      else if i < 16 then b1.getLsbD (i - 8)
      else if i < 24 then b2.getLsbD (i - 16)
      else b3.getLsbD (i - 24) := by
  simp only [wordOfBytes, BitVec.getLsbD_append, Nat.sub_sub]
  grind

/-- The concatenation of rule R67 is its formula of shifts: at each bit only the byte that holds it contributes. -/
theorem wordOfBytes_eq_or (b0 b1 b2 b3 : Byte) :
    wordOfBytes b0 b1 b2 b3 =
      b0.setWidth 32 ||| b1.setWidth 32 <<< 8 ||| b2.setWidth 32 <<< 16 ||| b3.setWidth 32 <<< 24 := by
  refine BitVec.eq_of_getLsbD_eq fun i hi => ?_
  rw [getLsbD_wordOfBytes]
  simp only [BitVec.getLsbD_or, BitVec.getLsbD_shiftLeft, BitVec.getLsbD_setWidth]
  split_ifs <;> grind

/-- The four bytes of a word, read back, are the word. -/
theorem wordOfBytes_bytes (v : Word) :
    wordOfBytes (v.extractLsb' 0 8) (v.extractLsb' 8 8) (v.extractLsb' 16 8) (v.extractLsb' 24 8) = v := by
  refine BitVec.eq_of_getLsbD_eq fun i hi => ?_
  rw [getLsbD_wordOfBytes]
  simp only [BitVec.getLsbD_extractLsb']
  split_ifs <;> grind

@[simp] theorem length_bytesOfWord (v : Word) : (bytesOfWord v).length = 4 := rfl

/-- Byte `m` of a word is its bits `8m+7..8m`. -/
theorem getElem?_bytesOfWord (v : Word) (m : Fin 4) :
    (bytesOfWord v)[m.val]? = some (v.extractLsb' (8 * m.val) 8) :=
  match m with
  | 0 | 1 | 2 | 3 => rfl

/-! ### A list of equal pieces, one after the other -/

section Pieces

variable {α β : Type} {f : α → List β} {n : Nat}

theorem length_flatMap_of_pieces (hf : ∀ a, (f a).length = n) (l : List α) : (l.flatMap f).length = n * l.length := by
  simp [List.length_flatMap, hf, Nat.mul_comm]

/-- Element `j` of piece `i` stands at `n * i + j`. -/
theorem getElem?_flatMap_of_pieces (hf : ∀ a, (f a).length = n) (l : List α) (i : Nat) {j : Nat} (hj : j < n) :
    (l.flatMap f)[n * i + j]? = l[i]?.bind fun a => (f a)[j]? := by
  induction l generalizing i with
  | nil => simp
  | cons a l ih =>
    rw [List.flatMap_cons]
    cases i with
    | zero => simp [List.getElem?_append_left, hf, hj]
    | succ i =>
      have hIndex : n * (i + 1) + j - n = n * i + j := by rw [Nat.mul_succ]; omega
      rw [List.getElem?_append_right (by rw [hf, Nat.mul_succ]; omega), hf, hIndex, ih]
      rfl

end Pieces

/-! ### Words as a buffer (20_memory.md rule R67) -/

/-- A buffer of whole words, read back, gives the words. -/
theorem wordsOfBytes_flatMap (ws : List Word) : wordsOfBytes (ws.flatMap bytesOfWord) = some ws := by
  induction ws with
  | nil => rfl
  | cons v ws ih => simp [bytesOfWord, wordsOfBytes, wordOfBytes_bytes, ← ih]

/-- Byte `m` of word `k` stands at `4k + m`. -/
theorem getElem?_flatMap_bytesOfWord {n : Nat} (word : Fin n → Word) (k : Fin n) (m : Fin 4) :
    ((List.ofFn word).flatMap bytesOfWord)[4 * k.val + m.val]? = some ((word k).extractLsb' (8 * m.val) 8) := by
  rw [getElem?_flatMap_of_pieces length_bytesOfWord _ _ m.isLt]
  simp [getElem?_bytesOfWord]

theorem bytesOfBlock_eq_flatMap (b : Block) : bytesOfBlock b = (List.ofFn (blockWord b)).flatMap bytesOfWord := rfl

theorem bytesOfKey_eq_flatMap (b : Key) : bytesOfKey b = (List.ofFn (keyWord b)).flatMap bytesOfWord := rfl

@[simp] theorem length_bytesOfBlock (b : Block) : (bytesOfBlock b).length = 16 := rfl

theorem getElem?_bytesOfBlock (b : Block) (k m : Fin 4) :
    (bytesOfBlock b)[4 * k.val + m.val]? = some ((blockWord b k).extractLsb' (8 * m.val) 8) :=
  getElem?_flatMap_bytesOfWord (blockWord b) k m

theorem blockOfBytes_bytesOfBlock (b : Block) : blockOfBytes (bytesOfBlock b) = some b := by
  rw [blockOfBytes, bytesOfBlock_eq_flatMap, wordsOfBytes_flatMap]
  rfl

theorem keyOfBytes_bytesOfKey (b : Key) : keyOfBytes (bytesOfKey b) = some b := by
  rw [keyOfBytes, bytesOfKey_eq_flatMap, wordsOfBytes_flatMap]
  rfl

/-- Settles O7: a block or a key is the buffer of its words, and the spec's example key is evaluated. -/
theorem blocksAndKeysAreLittleEndian : Obligations.BlocksAndKeysAreLittleEndian :=
  ⟨wordOfBytes_eq_or,
    fun b => ⟨blockOfBytes_bytesOfBlock b, length_bytesOfBlock b, getElem?_bytesOfBlock b⟩,
    fun b => ⟨keyOfBytes_bytesOfKey b, rfl, getElem?_flatMap_bytesOfWord (keyWord b)⟩,
    by decide⟩

/-- Settles O8: round key `r` is piece `r` of the table's buffer, and its bytes are those of a block. -/
theorem roundKeyTableByteOrder : Obligations.RoundKeyTableByteOrder := by
  intro t
  refine ⟨by simp [bytesOfTable, length_flatMap_of_pieces length_bytesOfBlock], fun r k m => ?_⟩
  rw [bytesOfTable, Nat.add_assoc,
    getElem?_flatMap_of_pieces length_bytesOfBlock _ _ (by omega : 4 * k.val + m.val < 16)]
  simp [getElem?_bytesOfBlock]

/-! ### What the bus refuses and reads (20_memory.md rules R62 to R66 and R71) -/

/-- A host access of the window is decoded at its offset. -/
theorem step_of_access {s : State} {a : Access} {rest : List Turn} {off : Nat} (h : s.agenda = .host a :: rest)
    (ha : accessAddr a = s.params.base + off) (hOff : off < 0x400) :
    step s = accessAt off a { s with agenda := rest } := by
  rw [step_of_agenda_cons h]
  simp only [takeTurn, busAccess, ha, windowOffset_base_add _ hOff]

/-- No register stands at a misaligned offset (rule R63). -/
theorem regAt_of_misaligned {off : Nat} (h : off % 4 ≠ 0) : regAt off = none := if_pos h

theorem readReply_of_refused {off : Nat} {size : Size} (h : size ≠ .word ∨ regAt off = none) (s : State) :
    readReply off size s = .read .busErr 0 := by
  unfold readReply
  split
  case h_1 r hr => simp [hr] at h
  case h_2 => rfl

theorem readReply_of_regAt {off : Nat} {r : Reg} (h : regAt off = some r) (s : State) :
    readReply off .word s = .read .ok (readReg r s) := by
  simp only [readReply, h]

/-- Settles O53: on each ground a read answers `BUS_ERR`, and a write has no target. -/
theorem refusedAccessesChangeNothing : Obligations.RefusedAccessesChangeNothing := by
  intro s off size lanes v rest hOff
  refine ⟨fun hGround h => ?_, fun hGround h => ?_⟩
  · have hRefused : size ≠ .word ∨ regAt off = none :=
      hGround.imp_right fun hReg => hReg.elim regAt_of_misaligned id
    rw [step_of_access h rfl hOff, accessAt, readReply_of_refused hRefused]
    rfl
  · have hTarget : writeTarget off size lanes = none := by
      refine Option.eq_none_iff_forall_ne_some.mpr fun r hr => ?_
      obtain ⟨rfl, rfl, hReg, hWritable⟩ := writeTarget_eq_some.mp hr
      rcases hGround with hSize | hLanes | hMisaligned | hUnmapped | ⟨r', hReg', hReadOnly⟩
      · exact hSize rfl
      · exact hLanes rfl
      · simp [regAt_of_misaligned hMisaligned] at hReg
      · simp [hUnmapped] at hReg
      · obtain rfl := Option.some.inj (hReg.symm.trans hReg')
        simp [hReadOnly] at hWritable
    rw [step_of_access h rfl hOff]
    simp only [accessAt, hTarget]
    rfl

/-- A register reads the same whatever the host still does and has been answered. -/
theorem readReg_agenda_replies (r : Reg) (s : State) (agenda : List Turn) (replies : List Reply) :
    readReg r { s with agenda := agenda, replies := replies } = readReg r s := by
  cases r <;> rfl

/-- A read of a register answers its value, and only the agenda and the replies change. -/
theorem step_of_rd {s : State} {r : Reg} {rest : List Turn} (h : s.agenda = rd s.params r :: rest) :
    step s = .next { s with agenda := rest, replies := s.replies ++ [.read .ok (readReg r s)] } := by
  rw [step_of_access h rfl (regOffset_lt r), accessAt, readReply_of_regAt (regAt_regOffset r),
    readReg_agenda_replies r s rest s.replies]
  rfl

/-- Settles O54: `step_of_rd` twice; the second read finds the register as the first left it. -/
theorem readsHaveNoSideEffects : Obligations.ReadsHaveNoSideEffects := by
  refine ⟨fun s r rest h => step_of_rd h, fun s r rest h => ?_⟩
  rw [run_succ_of_step 1 (step_of_rd h), run_succ_of_step 0 (step_of_rd rfl),
    readReg_agenda_replies r s (rd s.params r :: rest)]
  simp [Host.Core.run]

end Sys2Proof.Proofs
end

section
/-! PROOFS. 30_encoding.md: the command word's reserved bits, what a CTRL write does, and its CFG form. -/

namespace Sys2Proof.Proofs

open Sys2Proof.Machine Sys2Proof.Statements

/-! ### The reserved bits (30_encoding.md rule R87) -/

/-- A part of the word with no reserved bit in it survives the mask. -/
theorem extractLsb'_and_fieldMask {start len : Nat}
    (h : fieldMask.extractLsb' start len = BitVec.allOnes len) (v : Word) :
    (v &&& fieldMask).extractLsb' start len = v.extractLsb' start len := by
  rw [BitVec.extractLsb'_and, h, BitVec.and_allOnes]

theorem wordOp_and_fieldMask (v : Word) : wordOp (v &&& fieldMask) = wordOp v :=
  extractLsb'_and_fieldMask rfl v

theorem wordFields_and_fieldMask (v : Word) : wordFields (v &&& fieldMask) = wordFields v := by
  have hIe : (v &&& fieldMask).getLsbD 16 = v.getLsbD 16 := by simp [fieldMask]
  simp only [wordFields, extractLsb'_and_fieldMask (start := 4) (len := 2) rfl,
    extractLsb'_and_fieldMask (start := 8) (len := 5) rfl, hIe]

theorem wordStart_and_fieldMask (v : Word) : wordStart (v &&& fieldMask) = wordStart v := by
  simp [wordStart, fieldMask]

/-- The decoder looks at START, OP and the fields, and no reserved bit is in one of them. -/
theorem decodeWord_and_fieldMask (v : Word) : decodeWord (v &&& fieldMask) = decodeWord v := by
  simp only [decodeWord, wordOp_and_fieldMask, wordFields_and_fieldMask, wordStart_and_fieldMask]

theorem encode_instr (c : Cmd) (f : Fields) : encode (c.instr f) = packWord true (opcode c) f := by
  cases c <;> rfl

theorem encode_reservedInstr (op : BitVec 4) (f : Fields) : encode (reservedInstr op f) = packWord true op f := by
  unfold reservedInstr
  split_ifs with h0 hB
  · subst h0; rfl
  · subst hB; rfl
  · rfl

/-- An instruction keeps START, OP and every field of its word: the encoder lays them out again. -/
theorem encode_decodeWord (v : Word) :
    encode (decodeWord v) = packWord (wordStart v) (wordOp v) (wordFields v) := by
  unfold decodeWord
  cases hv : wordStart v with
  | false => rfl
  | true =>
    cases hc : cmdOf (wordOp v) with
    | some c => rw [opcode_of_cmdOf hc]; exact encode_instr c _
    | none => exact encode_reservedInstr _ _

/-- Each bit of the layout of rule R80 is the word's own bit or a reserved one. -/
theorem packWord_of_word (v : Word) :
    packWord (wordStart v) (wordOp v) (wordFields v) = v &&& fieldMask := by
  refine BitVec.eq_of_getLsbD_eq fun i hi => ?_
  simp only [packWord, wordStart, wordOp, wordFields, fieldMask, BitVec.getLsbD_and, BitVec.getLsbD_append]
  interval_cases i <;> simp

/-- Settles O2: the decoder ignores the reserved bits, and the encoder puts back every other one. -/
theorem reservedBitsAreIgnored : Obligations.ReservedBitsAreIgnored := fun v =>
  ⟨(decodeWord_and_fieldMask v).symm, (encode_decodeWord v).trans (packWord_of_word v)⟩

/-! ### A CTRL write (30_encoding.md rules R88 and R93) -/

theorem configure_of_busy {s : State} (hb : s.status.busy = true) (op : BitVec 4) (f : Fields) :
    configure op f s = discarded s := if_pos hb

theorem configure_of_idle {s : State} (hb : s.status.busy = false) (op : BitVec 4) (f : Fields) :
    configure op f s = { s with ctrl := ⟨op, f.rclass, f.amt, f.ie⟩ } := if_neg (by simp [hb])

/-- The pseudocode of rule R93 without START is the CFG form. -/
theorem ctrlWritePseudocode_of_not_start {v : Word} (hv : wordStart v = false) (s : State) :
    ctrlWritePseudocode v s = configure (wordOp v) (wordFields v) s := by
  have hv' : v.getLsbD 31 = false := hv
  cases hb : s.status.busy with
  | true => rw [configure_of_busy hb]; exact if_pos hb
  | false =>
    rw [configure_of_idle hb]
    simp only [ctrlWritePseudocode, hb, hv', Bool.false_eq_true, if_false, if_true]
    rfl

/-- AMT legality refused, by the two checks of rule R93. -/
theorem amtLegal_eq_false_iff (op : BitVec 4) (amt : BitVec 5) :
    amtLegal op amt = false ↔
      op = 7#4 ∧ ¬ (1 ≤ amt.toNat ∧ amt.toNat ≤ 15) ∨ op = 8#4 ∧ ¬ (1 ≤ amt.toNat ∧ amt.toNat ≤ 31) := by
  have hWidth : amt.toNat ≤ 31 := by omega
  rw [← Bool.not_eq_true, amtLegal_iff]
  tauto

/-- The pseudocode of rule R93 with START makes the model's checks, in the model's order. -/
theorem ctrlWritePseudocode_of_start {v : Word} (hv : wordStart v = true) (s : State) :
    ctrlWritePseudocode v s = issue (wordOp v) (wordFields v) s := by
  have hv' : v.getLsbD 31 = true := hv
  simp only [ctrlWritePseudocode, issue, hv', ← ite_or, ← opPresent_iff, ← amtLegal_eq_false_iff,
    Bool.not_eq_true, Bool.not_eq_true', Bool.true_eq_false, if_false]
  rfl

/-- Rule R93 on every word: decoding it and executing the instruction is the pseudocode on its bits. -/
theorem exec_decodeWord (v : Word) (s : State) : exec (decodeWord v) s = .next (ctrlWritePseudocode v s) := by
  cases hv : wordStart v with
  | true => rw [exec_decodeWord_of_start hv, ctrlWritePseudocode_of_start hv]
  | false => rw [exec_decodeWord_of_not_start hv, ctrlWritePseudocode_of_not_start hv]

/-- A CTRL write neither looks at nor changes the agenda and the replies. -/
theorem ctrlWritePseudocode_agenda_replies (v : Word) (s : State) (agenda : List Turn) (replies : List Reply) :
    ctrlWritePseudocode v { s with agenda := agenda, replies := replies } =
      { ctrlWritePseudocode v s with agenda := agenda, replies := replies } := by
  simp only [ctrlWritePseudocode]
  split_ifs <;> rfl

/-- Settles O27: the step is the register write of the word, answered `OK` whatever the checks then say. -/
theorem commandWriteFollowsPseudocode : Obligations.CommandWriteFollowsPseudocode := by
  refine ⟨exec_decodeWord, fun s v rest h => ?_⟩
  calc
    step s = exec (decodeWord v) (answered s) := step_of_nextWrites ⟨rest, h⟩ rfl
    _ = .next (ctrlWritePseudocode v { s with agenda := rest, replies := s.replies ++ [.write .ok] }) := by
      rw [exec_decodeWord, answered, h]; rfl
    _ = _ := by rw [ctrlWritePseudocode_agenda_replies]

theorem decodeWord_of_not_start {v : Word} (hv : wordStart v = false) :
    decodeWord v = .cfg (wordOp v) (wordFields v) := if_neg (by simp [hv])

/-- CTRL after a CFG reads as its word, the reserved bits 0. -/
theorem ctrlWord_of_not_start {v : Word} (hv : wordStart v = false) :
    ctrlWord ⟨wordOp v, (wordFields v).rclass, (wordFields v).amt, (wordFields v).ie⟩ = v &&& fieldMask := by
  rw [← packWord_of_word, hv]
  rfl

/-- Settles O36: `configure` is all of CFG; the example is a CFG word. -/
theorem cfgStoresAndDoesNothingElse : Obligations.CfgStoresAndDoesNothingElse := by
  refine ⟨fun v => decodeWord_of_not_start, fun op f s => ⟨fun hb => ⟨?_, rfl⟩, fun hb => ?_⟩, fun s hb => ?_⟩
  · exact congrArg _ (configure_of_idle hb op f)
  · exact congrArg _ (configure_of_busy hb op f)
  · have hv : wordStart 0x00010006#32 = false := by decide
    refine ⟨_, exec_decodeWord_of_not_start hv s, ?_⟩
    rw [configure_of_idle hb]
    exact ⟨(ctrlWord_of_not_start hv).trans (by decide), rfl⟩

end Sys2Proof.Proofs
end

section
/-! PROOFS. 60_exceptions.md: a START refused while idle (rules R221 and R222), and a write discarded while busy
(rule R223). -/

namespace Sys2Proof.Proofs

open Sys2Proof.Machine Sys2Proof.Statements

/-! ### What a START that is not accepted leaves -/

/-- OP legality (30_encoding.md rules R83 and R84) refused, as ranges of the field. -/
theorem opPresent_eq_false_iff (p : Params) (op : BitVec 4) :
    opPresent p op = false ↔
      op = 0#4 ∨ 11 ≤ op.toNat ∨ p.hasPrimOps = false ∧ 4 ≤ op.toNat ∧ op.toNat ≤ 10 := by
  rw [← Bool.not_eq_true, opPresent_iff]
  cases p.hasPrimOps <;> simp only [reduceCtorEq, true_and, false_and, or_false] <;> bv_omega

/-- Which commands the block has, by command (30_encoding.md rule R84). -/
theorem opPresent_opcode (p : Params) (c : Cmd) : opPresent p (opcode c) = (!primitive c || p.hasPrimOps) := by
  simp only [opPresent, cmdOf_opcode]

theorem issue_of_busy {s : State} (hb : s.status.busy = true) (op : BitVec 4) (f : Fields) :
    issue op f s = discarded s := if_pos hb

theorem issue_of_absent {s : State} {op : BitVec 4} {f : Fields} (hb : s.status.busy = false)
    (ho : opPresent s.params op = false) : issue op f s = turnedAway 1#4 op f s := by
  simp only [issue, hb, ho, Bool.not_false, Bool.false_eq_true, if_false, if_true]
  rfl

theorem issue_of_illegalAmt {s : State} {op : BitVec 4} {f : Fields} (hb : s.status.busy = false)
    (ho : opPresent s.params op = true) (ha : amtLegal op f.amt = false) :
    issue op f s = turnedAway 2#4 op f s := by
  simp only [issue, hb, ho, ha, Bool.not_true, Bool.not_false, Bool.false_eq_true, if_false, if_true]
  rfl

/-- The step that takes a word with START = 1 issues it, with the reply `OK` whatever the checks then say. -/
theorem step_of_startWord {s : State} {v : Word} {rest : List Turn} (h : s.agenda = wr s.params .ctrl v :: rest)
    (hv : wordStart v = true) :
    step s = .next (issue (wordOp v) (wordFields v)
      { s with agenda := rest, replies := s.replies ++ [.write .ok] }) := by
  rw [step_of_nextWrites ⟨rest, h⟩ rfl, writeReg, exec_decodeWord_of_start hv, answered, h]
  rfl

/-- A STATUS that reads 0 is cleared: each of its fields has bits of the word. -/
theorem status_eq_zero_of_read {s : State} (h : readReg .status s = 0#32) : s.status = Status.zero := by
  have hFields : ∀ busy done err errcode, statusWord ⟨busy, done, err, errcode⟩ = 0#32 →
      (⟨busy, done, err, errcode⟩ : Status) = Status.zero := by decide
  exact hFields _ _ _ _ h

/-- STATUS after a refusal from a cleared STATUS: ERR and the code, and nothing else. -/
theorem readReg_status_turnedAway {s : State} (h : s.status = Status.zero) (code op : BitVec 4) (f : Fields) :
    readReg .status (turnedAway code op f s) = statusWord ⟨false, false, true, code⟩ := by
  simp only [readReg, turnedAway, h, Status.zero]

/-! ### ILLEGAL_OP and ILLEGAL_AMT (60_exceptions.md rules R221 and R222) -/

/-- Settles O37: an OP the block lacks fails the first check, by its range or as an absent primitive command. -/
theorem illegalOpIsRecorded : Obligations.IllegalOpIsRecorded := by
  refine ⟨fun f s hb => ?_, fun s v rest hb hAgenda hv hOp => ?_, fun s hs => ?_⟩
  · have hReserved (op : BitVec 4) (h : op = 0#4 ∨ 11 ≤ op.toNat) : issue op f s = turnedAway 1#4 op f s :=
      issue_of_absent hb ((opPresent_eq_false_iff _ _).mpr (h.imp_right .inl))
    refine ⟨congrArg _ (hReserved 0x0#4 (by decide)), congrArg _ (hReserved 0xB#4 (by decide)),
      fun op h => congrArg _ (hReserved op (.inr (by omega))), fun hp => ?_⟩
    have hPrimitive (c : Cmd) (hc : primitive c = true) :
        exec (c.instr f) s = .next (turnedAway 1#4 (opcode c) f s) := by
      rw [exec_instr, issue_of_absent hb (by simp [opPresent_opcode, hc, hp])]
    exact ⟨hPrimitive .sbox rfl, hPrimitive .sboxinv rfl, hPrimitive .lin rfl, hPrimitive .rot16 rfl,
      hPrimitive .rot32 rfl, hPrimitive .m0 rfl, hPrimitive .m1 rfl⟩
  · exact (step_of_startWord hAgenda hv).trans
      (congrArg _ (issue_of_absent hb ((opPresent_eq_false_iff _ _).mpr hOp)))
  · have hStatus := status_eq_zero_of_read hs
    refine ⟨turnedAway 1#4 0xB#4 ⟨0, 0, false⟩ s, ?_, show ctrlWord ⟨0xB#4, 0, 0, false⟩ = _ by decide, ?_⟩
    · rw [exec_decodeWord_of_start (by decide)]
      exact congrArg _ (issue_of_absent (congrArg Status.busy hStatus) rfl)
    · rw [readReg_status_turnedAway hStatus]
      rfl

/-- Where the rotates are present their OP passes the first check, and an amount out of range fails the second. -/
theorem issue_rotate_of_amtOutOfRange {s : State} {op : BitVec 4} {f : Fields} (hb : s.status.busy = false)
    (hp : s.params.hasPrimOps = true)
    (h : op = 7#4 ∧ ¬ (1 ≤ f.amt.toNat ∧ f.amt.toNat ≤ 15) ∨ op = 8#4 ∧ f.amt = 0#5) :
    issue op f s = turnedAway 2#4 op f s := by
  refine issue_of_illegalAmt hb ((opPresent_iff _ _).mpr (.inr ⟨hp, ?_⟩)) ((amtLegal_eq_false_iff _ _).mpr ?_)
  · rcases h with ⟨rfl, -⟩ | ⟨rfl, -⟩ <;> decide
  · exact h.imp_right fun ⟨hOp, hAmt⟩ => ⟨hOp, by simp [hAmt]⟩

/-- Settles O38: by instruction, by word and in the example a rotate is issued with an amount out of range. -/
theorem illegalAmountIsRecorded : Obligations.IllegalAmountIsRecorded := by
  refine ⟨fun f s hb hp => ⟨fun h => ?_, fun h => ?_⟩, fun s v rest hb hp hAgenda hv h => ?_, fun s hp hs => ?_⟩
  · exact congrArg _ (issue_rotate_of_amtOutOfRange hb hp (.inl ⟨rfl, h⟩))
  · exact congrArg _ (issue_rotate_of_amtOutOfRange hb hp (.inr ⟨rfl, h⟩))
  · exact (step_of_startWord hAgenda hv).trans (congrArg _ (issue_rotate_of_amtOutOfRange hb hp h))
  · have hStatus := status_eq_zero_of_read hs
    refine ⟨turnedAway 2#4 0x7#4 ⟨0, 16, false⟩ s, ?_, ?_⟩
    · rw [exec_decodeWord_of_start (by decide)]
      exact congrArg _ (issue_rotate_of_amtOutOfRange (congrArg Status.busy hStatus) hp (.inl (by decide)))
    · rw [readReg_status_turnedAway hStatus]
      rfl

/-! ### BUSY_WRITE (60_exceptions.md rule R223) -/

theorem exec_of_busy {s : State} (hb : s.status.busy = true) (i : Instr) : exec i s = .next (discarded s) := by
  obtain ⟨op, f, h | h⟩ := exec_cases i s
  · rw [h, configure_of_busy hb]
  · rw [h, issue_of_busy hb]

/-- While BUSY=1 no value written to CTRL, DIN or KEY is stored. -/
theorem writeReg_of_busy {s : State} {r : Reg} (hb : s.status.busy = true) (hr : Guarded r) (v : Word) :
    writeReg r v s = .next (discarded s) := by
  rcases hr with rfl | ⟨k, rfl⟩ | ⟨k, rfl⟩
  · exact exec_of_busy hb _
  · exact congrArg _ (if_pos hb)
  · exact congrArg _ (if_pos hb)

/-- A write to a read-only register is one of the bus's refused accesses (20_memory.md rule R65). -/
theorem step_of_wr_readOnly {s : State} {r : Reg} {v : Word} {rest : List Turn} (hr : writable r = false)
    (h : s.agenda = wr s.params r v :: rest) :
    step s = .next { s with agenda := rest, replies := s.replies ++ [.write .busErr] } :=
  (refusedAccessesChangeNothing s (regOffset r) .word 0xF#4 v rest (regOffset_lt r)).2
    (.inr (.inr (.inr (.inr ⟨r, regAt_regOffset r, hr⟩)))) h

/-- Settles O39: CTRL, DIN and KEY by the busy check they share; STATUS by its own write, which has no such check;
the refused writes and the reads by what the bus does in every state. -/
theorem busyWritesAreDiscarded : Obligations.BusyWritesAreDiscarded := by
  refine ⟨fun i s hb => exec_of_busy hb i, fun s off v rest _ hOff hReg h => ?_,
    fun s r v rest hb => ⟨fun hr h => ?_, fun hr h => ?_, fun hr h => ?_, step_of_rd⟩⟩
  · exact (refusedAccessesChangeNothing s off .word 0xF#4 v rest hOff).2 (.inr (.inr (.inr (.inl hReg)))) h
  · rw [step_of_nextWrites ⟨rest, h⟩ (writable_of_guarded hr), writeReg_of_busy (s := answered s) hb hr,
      answered, h]
    rfl
  · subst hr
    exact ⟨_, step_of_nextWrites ⟨rest, h⟩ rfl, rfl, rfl, rfl, hb, rfl, rfl⟩
  · refine step_of_wr_readOnly ?_ h
    rcases hr with rfl | ⟨k, rfl⟩ | ⟨n, k, rfl⟩ <;> rfl

end Sys2Proof.Proofs
end

section
/-! PROOFS. 30_encoding.md: decoding undoes encoding, the rows of the opcode table, and the words of CMD and CFG. -/

namespace Sys2Proof.Proofs

open Sys2Proof.Machine Sys2Proof.Statements

/-! ### The parts of a packed word (30_encoding.md rules R80 and R81) -/

/-- The layout of rule R80, bit by bit. -/
theorem getLsbD_packWord (start : Bool) (op : BitVec 4) (f : Fields) {i : Nat} (hi : i < 32) :
    (packWord start op f).getLsbD i =
      if i ≤ 3 then op.getLsbD i
      else if 4 ≤ i ∧ i ≤ 5 then f.rclass.getLsbD (i - 4)
      else if 8 ≤ i ∧ i ≤ 12 then f.amt.getLsbD (i - 8)
      else if i = 16 then f.ie
      else decide (i = 31) && start := by
  simp only [packWord, BitVec.getLsbD_append]
  interval_cases i <;> simp

@[simp] theorem wordStart_packWord (start : Bool) (op : BitVec 4) (f : Fields) :
    wordStart (packWord start op f) = start := by
  rw [wordStart, getLsbD_packWord _ _ _ (by decide)]
  simp

@[simp] theorem wordOp_packWord (start : Bool) (op : BitVec 4) (f : Fields) :
    wordOp (packWord start op f) = op :=
  BitVec.extractLsb'_append_eq_right

@[simp] theorem wordFields_packWord (start : Bool) (op : BitVec 4) (f : Fields) :
    wordFields (packWord start op f) = f := by
  have hRclass : (packWord start op f).extractLsb' 4 2 = f.rclass := by
    refine BitVec.eq_of_getLsbD_eq fun i hi => ?_
    rw [BitVec.getLsbD_extractLsb', getLsbD_packWord _ _ _ (by omega)]
    interval_cases i <;> simp
  have hAmt : (packWord start op f).extractLsb' 8 5 = f.amt := by
    refine BitVec.eq_of_getLsbD_eq fun i hi => ?_
    rw [BitVec.getLsbD_extractLsb', getLsbD_packWord _ _ _ (by omega)]
    interval_cases i <;> simp
  have hIe : (packWord start op f).getLsbD 16 = f.ie := by
    rw [getLsbD_packWord _ _ _ (by decide)]
    simp
  simp only [wordFields, hRclass, hAmt, hIe]

/-! ### Decoding a packed word -/

theorem decodeWord_packWord_not_start (op : BitVec 4) (f : Fields) :
    decodeWord (packWord false op f) = .cfg op f := by
  simp [decodeWord]

theorem decodeWord_packWord_cmd (c : Cmd) (f : Fields) :
    decodeWord (packWord true (opcode c) f) = c.instr f := by
  simp [decodeWord, cmdOf_opcode]

theorem decodeWord_packWord_reserved {op : BitVec 4} (h : cmdOf op = none) (f : Fields) :
    decodeWord (packWord true op f) = reservedInstr op f := by
  simp [decodeWord, h]

/-- The OP range of the last reserved row (30_encoding.md rule R83) names no command, and is not 0x0 or 0xB. -/
theorem cmdOf_of_reservedCF {op : BitVec 4} (h : 0xC#4 ≤ op) : cmdOf op = none ∧ op ≠ 0x0#4 ∧ op ≠ 0xB#4 := by
  revert op
  decide

/-- Settles O1: a command, a CFG and a reserved row each by how their packed word decodes. -/
theorem decodeUndoesEncode : Obligations.DecodeUndoesEncode := by
  intro i hi
  cases i with
  | enc f => exact decodeWord_packWord_cmd .enc f
  | dec f => exact decodeWord_packWord_cmd .dec f
  | keyexp f => exact decodeWord_packWord_cmd .keyexp f
  | sbox f => exact decodeWord_packWord_cmd .sbox f
  | sboxinv f => exact decodeWord_packWord_cmd .sboxinv f
  | lin f => exact decodeWord_packWord_cmd .lin f
  | rot16 f => exact decodeWord_packWord_cmd .rot16 f
  | rot32 f => exact decodeWord_packWord_cmd .rot32 f
  | m0 f => exact decodeWord_packWord_cmd .m0 f
  | m1 f => exact decodeWord_packWord_cmd .m1 f
  | cfg op f => exact decodeWord_packWord_not_start op f
  | reserved0 f => exact decodeWord_packWord_reserved (op := 0x0#4) rfl f
  | reservedB f => exact decodeWord_packWord_reserved (op := 0xB#4) rfl f
  | reservedCF op f =>
    obtain ⟨hNone, h0, hB⟩ := cmdOf_of_reservedCF (of_decide_eq_true hi)
    rw [encode, decodeWord_packWord_reserved hNone, reservedInstr, if_neg h0, if_neg hB]

/-! ### The rows of the opcode table (30_encoding.md rule R92) -/

/-- A word belongs to a row by its START and OP alone. -/
theorem holds_of_mem_opcodeTable {r : Row} (hr : r ∈ opcodeTable) (v : Word) :
    r.holds v = r.holds (packWord (wordStart v) (wordOp v) ⟨0, 0, false⟩) := by
  have hMask : r.mask = 0x8000000F#32 &&& r.mask := by
    revert r
    decide
  have hBits : v &&& 0x8000000F#32 = packWord (wordStart v) (wordOp v) ⟨0, 0, false⟩ &&& 0x8000000F#32 := by
    rw [Laws.EncodedInRow.packWord_and_mask, ← Laws.EncodedInRow.packWord_and_mask _ _ (wordFields v),
      packWord_of_word, BitVec.and_assoc]
    rfl
  rw [Row.holds, Row.holds, hMask, ← BitVec.and_assoc, ← BitVec.and_assoc, hBits]

theorem row_instr (c : Cmd) (f f' : Fields) : (c.instr f).row = (c.instr f').row := by
  cases c <;> rfl

theorem row_reservedInstr (op : BitVec 4) (f f' : Fields) : (reservedInstr op f).row = (reservedInstr op f').row := by
  unfold reservedInstr
  split_ifs <;> rfl

/-- The row of a word's instruction depends on START and OP alone. -/
theorem row_decodeWord (v : Word) :
    (decodeWord v).row = (decodeWord (packWord (wordStart v) (wordOp v) ⟨0, 0, false⟩)).row := by
  cases hv : wordStart v with
  | false => rw [decodeWord_packWord_not_start, decodeWord_of_not_start hv]; rfl
  | true =>
    simp only [decodeWord, hv, wordStart_packWord, wordOp_packWord, if_true]
    cases cmdOf (wordOp v) with
    | some c => exact row_instr c _ _
    | none => exact row_reservedInstr _ _ _

/-- Settles O3: START and OP alone decide on both sides, and each of their 32 values is in one row. -/
theorem everyWordHasExactlyOneRow : Obligations.EveryWordHasExactlyOneRow := by
  intro v
  have hFinite : ∀ (start : Bool) (op : BitVec 4),
      opcodeTable.filter (fun r => r.holds (packWord start op ⟨0, 0, false⟩)) =
        [(decodeWord (packWord start op ⟨0, 0, false⟩)).row] := by decide
  rw [row_decodeWord v, ← hFinite]
  exact List.filter_congr fun r hr => holds_of_mem_opcodeTable hr v

/-! ### The words of CMD and CFG (30_encoding.md rule R91) -/

/-- The OR of the shifted fields is the layout of rule R80 with START = 0. -/
theorem cfgWord_eq_packWord (c : Cmd) (f : Fields) : cfgWord c f = packWord false (opcode c) f := by
  refine BitVec.eq_of_getLsbD_eq fun i hi => ?_
  rw [getLsbD_packWord _ _ _ hi]
  simp only [cfgWord, BitVec.getLsbD_or, BitVec.getLsbD_shiftLeft, BitVec.getLsbD_setWidth]
  interval_cases i <;> simp

theorem cmdWord_eq_packWord (c : Cmd) (f : Fields) : cmdWord c f = packWord true (opcode c) f := by
  rw [cmdWord, cfgWord_eq_packWord]
  refine BitVec.eq_of_getLsbD_eq fun i hi => ?_
  rw [BitVec.getLsbD_or, getLsbD_packWord _ _ _ hi, getLsbD_packWord _ _ _ hi]
  interval_cases i <;> simp

/-- Settles O4: both words are packed words. -/
theorem cmdAndCfgWordsDecode : Obligations.CmdAndCfgWordsDecode := fun c f =>
  ⟨by rw [cmdWord_eq_packWord, decodeWord_packWord_cmd], by rw [cfgWord_eq_packWord, decodeWord_packWord_not_start]⟩

/-- Settles O5: each word is evaluated. -/
theorem writtenOutWordsDecode : Obligations.WrittenOutWordsDecode := by
  unfold Obligations.WrittenOutWordsDecode
  decide

/-- Settles O6: the four bytes of a word read back as it, and any other list of bytes has no four-byte pattern. -/
theorem byteDecoderReadsOneWord : Obligations.ByteDecoderReadsOneWord := by
  refine ⟨fun v => congrArg (fun w => Except.ok (decodeWord w)) (wordOfBytes_bytes v), fun bytes h => ?_⟩
  unfold decodeBytes
  split
  · exact absurd rfl h
  · rfl

end Sys2Proof.Proofs
end

section
/-! PROOFS. 40_rotate.md to 44_cipher.md: the transform functions. -/

namespace Sys2Proof.Proofs

open Sys2Proof.Machine Sys2Proof.Statements

/-! ### Rotations of any width -/

section Rotation

variable {w : Nat}

/-- A rotation by `a` moves the bit at position `i` to position `(i + a) mod w`. -/
theorem getLsbD_rotateLeft_add_mod (x : BitVec w) (a : Nat) {i : Nat} (hi : i < w) :
    (x.rotateLeft a).getLsbD ((i + a) % w) = x.getLsbD i := by
  have hAmount : a % w < w := Nat.mod_lt _ (by omega)
  rw [BitVec.getLsbD_rotateLeft, Nat.add_mod, Nat.mod_eq_of_lt hi]
  rcases Nat.lt_or_ge (i + a % w) w with hStay | hWrap
  · rw [Nat.mod_eq_of_lt hStay]
    simp [hStay]
  · rw [Nat.mod_eq_sub_mod hWrap, Nat.mod_eq_of_lt (by omega)]
    have hLow : i + a % w - w < a % w := by omega
    have hIndex : w - a % w + (i + a % w - w) = i := by omega
    simp [hLow, hIndex]

/-- Two words are equal if they agree at the positions to which a rotation moves the bits, which are all positions. -/
theorem eq_of_getLsbD_add_mod (a : Nat) {x y : BitVec w}
    (h : ∀ i < w, x.getLsbD ((i + a) % w) = y.getLsbD ((i + a) % w)) : x = y := by
  refine BitVec.eq_of_getLsbD_eq fun j hj => ?_
  have hSource : ((j + (w - a % w)) % w + a) % w = j := by
    have hAmount : a % w < w := Nat.mod_lt _ (by omega)
    rw [Nat.mod_add_mod, ← Nat.add_mod_mod, Nat.add_assoc, Nat.sub_add_cancel hAmount.le, Nat.add_mod_right,
      Nat.mod_eq_of_lt hj]
  simpa only [hSource] using h _ (Nat.mod_lt (j + (w - a % w)) (by omega))

theorem rotateLeft_rotateLeft (x : BitVec w) (a b : Nat) :
    (x.rotateLeft a).rotateLeft b = x.rotateLeft (a + b) := by
  refine eq_of_getLsbD_add_mod (a + b) fun i hi => ?_
  have hTwice : (i + (a + b)) % w = ((i + a) % w + b) % w := by rw [Nat.mod_add_mod, Nat.add_assoc]
  rw [getLsbD_rotateLeft_add_mod _ _ hi, hTwice,
    getLsbD_rotateLeft_add_mod _ _ (Nat.mod_lt _ (by omega)), getLsbD_rotateLeft_add_mod _ _ hi]

theorem rotateLeft_xor (x y : BitVec w) (a : Nat) :
    (x ^^^ y).rotateLeft a = x.rotateLeft a ^^^ y.rotateLeft a := by
  refine eq_of_getLsbD_add_mod a fun i hi => ?_
  simp only [BitVec.getLsbD_xor, getLsbD_rotateLeft_add_mod _ _ hi]

theorem rotateLeft_zero_amount (x : BitVec w) : x.rotateLeft 0 = x := by
  refine eq_of_getLsbD_add_mod 0 fun i hi => ?_
  rw [getLsbD_rotateLeft_add_mod x 0 hi, Nat.add_zero, Nat.mod_eq_of_lt hi]

theorem rotateLeft_self_amount (x : BitVec w) : x.rotateLeft w = x := by
  rw [← BitVec.rotateLeft_mod_eq_rotateLeft, Nat.mod_self, rotateLeft_zero_amount]

end Rotation

/-! ### rot16 and rot32 (40_rotate.md rules R100 to R102) -/

theorem rot16_eq_rotateLeft (v : Half) (a : Amount 16) : rot16 v a = v.rotateLeft a.val := by
  rw [rot16, BitVec.rotateLeft_def, Nat.mod_eq_of_lt a.property.2]

theorem rot32_eq_rotateLeft (v : Word) (a : Amount 32) : rot32 v a = v.rotateLeft a.val := by
  rw [rot32, BitVec.rotateLeft_def, Nat.mod_eq_of_lt a.property.2]

/-- Settles O9: both functions are the rotation of their width. -/
theorem rotatesMoveEachBit : Obligations.RotatesMoveEachBit :=
  ⟨fun v a _ hi => by rw [rot16_eq_rotateLeft, getLsbD_rotateLeft_add_mod v _ hi],
    fun v a _ hi => by rw [rot32_eq_rotateLeft, getLsbD_rotateLeft_add_mod v _ hi]⟩

/-- Settles O10: the two amounts add up to a whole turn. -/
theorem rotateByTheRestUndoes : Obligations.RotateByTheRestUndoes := by
  refine ⟨fun v a b h => ?_, fun v a b h => ?_, fun n amt => by simp [amountOf]⟩
  · rw [rot16_eq_rotateLeft, rot16_eq_rotateLeft, rotateLeft_rotateLeft, h,
      Nat.add_sub_cancel' a.property.2.le, rotateLeft_self_amount]
  · rw [rot32_eq_rotateLeft, rot32_eq_rotateLeft, rotateLeft_rotateLeft, h,
      Nat.add_sub_cancel' a.property.2.le, rotateLeft_self_amount]

/-! ### The S-box layers (41_sbox.md rules R122, R123 and R126) -/

theorem sboxLanes_lane (b : Block) (i : Nat) : sboxLanes[lane b i]? = some (lane (sbox b) i) := by
  simp only [lane, sbox, BitVec.getLsbD_xor, BitVec.getLsbD_and]
  generalize b.w.getLsbD i = w, b.x.getLsbD i = x, b.y.getLsbD i = y, b.z.getLsbD i = z
  revert w x y z
  decide

theorem sboxInvLanes_lane (b : Block) (i : Nat) : sboxInvLanes[lane b i]? = some (lane (sboxInv b) i) := by
  simp only [lane, sboxInv, BitVec.getLsbD_xor, BitVec.getLsbD_and]
  generalize b.w.getLsbD i = w, b.x.getLsbD i = x, b.y.getLsbD i = y, b.z.getLsbD i = z
  revert w x y z
  decide

/-- Settles O11: the four statements of each function act on each bit position alone. -/
theorem sboxLanesFollowTheTable : Obligations.SboxLanesFollowTheTable := fun b i _ =>
  ⟨sboxLanes_lane b i, sboxInvLanes_lane b i⟩

/-- Each statement of `sboxInv` XORs away what the same statement of `sbox` XORed in. -/
theorem sboxInv_sbox (b : Block) : sboxInv (sbox b) = b := by
  simp [sbox, sboxInv]

theorem sbox_sboxInv (b : Block) : sbox (sboxInv b) = b := by
  simp [sbox, sboxInv]

/-- Settles O12: both functions make the same four statements, in opposite orders. -/
theorem sboxInverseLaw : Obligations.SboxInverseLaw := fun b => ⟨sboxInv_sbox b, sbox_sboxInv b⟩

theorem lane_lt (b : Block) (i : Nat) : lane b i < 16 := by
  have hw := Bool.toNat_le (b.w.getLsbD i)
  have hx := Bool.toNat_le (b.x.getLsbD i)
  have hy := Bool.toNat_le (b.y.getLsbD i)
  have hz := Bool.toNat_le (b.z.getLsbD i)
  unfold lane
  omega

/-- The lanes of a block hold all its bits. -/
theorem eq_iff_lane_eq (b b' : Block) : b = b' ↔ ∀ i < 32, lane b i = lane b' i := by
  refine ⟨fun h i _ => by rw [h], fun h => ?_⟩
  have hBits : ∀ i < 32, b.w.getLsbD i = b'.w.getLsbD i ∧ b.x.getLsbD i = b'.x.getLsbD i ∧
      b.y.getLsbD i = b'.y.getLsbD i ∧ b.z.getLsbD i = b'.z.getLsbD i := by
    have hNibble : ∀ w x y z w' x' y' z' : Bool,
        8 * w.toNat + 4 * x.toNat + 2 * y.toNat + z.toNat =
          8 * w'.toNat + 4 * x'.toNat + 2 * y'.toNat + z'.toNat →
        w = w' ∧ x = x' ∧ y = y' ∧ z = z' := by decide
    exact fun i hi => hNibble _ _ _ _ _ _ _ _ (h i hi)
  choose hw hx hy hz using hBits
  cases b
  cases b'
  rw [Block.mk.injEq]
  exact ⟨BitVec.eq_of_getLsbD_eq hw, BitVec.eq_of_getLsbD_eq hx, BitVec.eq_of_getLsbD_eq hy,
    BitVec.eq_of_getLsbD_eq hz⟩

/-- The fixed points of the S-box table. -/
theorem lane_sbox_eq_iff (b : Block) (i : Nat) :
    lane (sbox b) i = lane b i ↔ lane b i ∈ [0x0, 0x1, 0x2, 0x3, 0x4, 0x8, 0xC] := by
  have hTable : ∀ n < 16, sboxLanes[n]? = some n ↔ n ∈ [0x0, 0x1, 0x2, 0x3, 0x4, 0x8, 0xC] := by decide
  rw [← hTable _ (lane_lt b i), sboxLanes_lane, Option.some.injEq]

/-- Settles O13: a block is fixed when its every lane is, and the table sends 5 to D and D to 7. -/
theorem sboxFixedPointsAndNoInvolution : Obligations.SboxFixedPointsAndNoInvolution := by
  refine ⟨fun b => ?_, fun b i _ h => ?_, fun h => ?_⟩
  · rw [eq_iff_lane_eq]
    exact forall₂_congr fun i _ => lane_sbox_eq_iff b i
  · have hOnce : lane (sbox b) i = 0xD := Option.some.inj ((sboxLanes_lane b i).symm.trans (by rw [h]; rfl))
    exact ⟨hOnce, Option.some.inj ((sboxLanes_lane (sbox b) i).symm.trans (by rw [hOnce]; rfl))⟩
  · exact absurd (congrFun h ⟨0, 1, 0, 1⟩) (by decide)

/-! ### The linear layer (42_linear.md rules R140 to R143) -/

theorem linear_eq_linearByHalves (j : RoundClass) (v : Word) :
    linear j v = linearByHalves (linA j).val (linB j).val (linC j).val v := by
  simp only [linear, linearByHalves, rot16_eq_rotateLeft]

theorem linear_xor (j : RoundClass) (p q : Word) : linear j (p ^^^ q) = linear j p ^^^ linear j q := by
  simp only [linear_eq_linearByHalves, linearByHalves, BitVec.extractLsb'_xor, rotateLeft_xor]
  refine Eq.trans ?_ (BitVec.xor_append (w := 16) (v := 16)).symm
  congr 1 <;> ac_rfl

theorem linear_zero (j : RoundClass) : linear j 0 = 0 := by
  revert j
  decide

/-- The unit vectors of a word's lower `n` set bits, XORed together, are these bits. -/
theorem getLsbD_foldl_unit_vectors (v : Word) (n i : Nat) (hi : i < 32) :
    ((List.range n).foldl (fun acc k => if v.getLsbD k then acc ^^^ 1#32 <<< k else acc) 0#32).getLsbD i =
      (decide (i < n) && v.getLsbD i) := by
  induction n with
  | zero => simp
  | succ n ih =>
    rw [List.range_succ, List.foldl_append, List.foldl_cons, List.foldl_nil]
    have hUnit : (1#32 <<< n).getLsbD i = decide (i = n) := by
      simp only [BitVec.getLsbD_shiftLeft, BitVec.getLsbD_one]
      grind
    split_ifs with hBit
    · rw [BitVec.getLsbD_xor, ih, hUnit]
      grind
    · rw [ih]
      grind

/-- A word is the XOR of the unit vectors of its set bits. -/
theorem foldl_unit_vectors (v : Word) :
    (List.range 32).foldl (fun acc k => if v.getLsbD k then acc ^^^ 1#32 <<< k else acc) 0#32 = v := by
  refine BitVec.eq_of_getLsbD_eq fun i hi => ?_
  rw [getLsbD_foldl_unit_vectors v 32 i hi]
  simp [hi]

/-- Settles O14: XOR-linearity from that of a rotation, carried along the unit vectors of the word. -/
theorem linearIsXorLinear : Obligations.LinearIsXorLinear := by
  refine ⟨fun j => ⟨linear_zero j, linear_xor j, fun v => ?_⟩, fun v => ?_⟩
  · conv_lhs => rw [← foldl_unit_vectors v]
    rw [← List.foldl_hom (linear j) (g₂ := fun acc k => if v.getLsbD k then acc ^^^ linear j (1#32 <<< k) else acc)]
    · rw [show linear j 0#32 = 0 from linear_zero j]
    · intro acc k
      split_ifs
      · rw [linear_xor]
      · rfl
  · exact ⟨linear_eq_linearByHalves 0 v, linear_eq_linearByHalves 1 v, linear_eq_linearByHalves 2 v,
      linear_eq_linearByHalves 3 v⟩

theorem xor_cancel_pairs (u p q r t : Half) : u ^^^ p ^^^ q ^^^ (p ^^^ t ^^^ r) ^^^ (q ^^^ r ^^^ t) = u := by
  calc
    _ = u ^^^ (p ^^^ p) ^^^ (q ^^^ q) ^^^ (r ^^^ r) ^^^ (t ^^^ t) := by ac_rfl
    _ = u := by simp

/-- The map by halves undoes itself when two rotations by `a` are one by `b` and one by `c`. -/
theorem linearByHalves_linearByHalves {a b c : Nat} (h : (a + a) % 16 = (b + c) % 16) (v : Word) :
    linearByHalves a b c (linearByHalves a b c v) = v := by
  have hTurn (x : Half) : x.rotateLeft (a + a) = x.rotateLeft (b + c) := by
    rw [← BitVec.rotateLeft_mod_eq_rotateLeft, h, BitVec.rotateLeft_mod_eq_rotateLeft]
  have hHalves : v.extractLsb' 16 16 ++ v.extractLsb' 0 16 = v :=
    (BitVec.extractLsb'_append_extractLsb'_eq_extractLsb' rfl).trans BitVec.extractLsb'_eq_self
  simp only [linearByHalves, BitVec.extractLsb'_append_eq_left, BitVec.extractLsb'_append_eq_right,
    rotateLeft_xor, rotateLeft_rotateLeft, hTurn, Nat.add_comm c, Nat.add_comm b a]
  refine Eq.trans ?_ hHalves
  congr 1
  · exact xor_cancel_pairs _ _ _ _ _
  · exact xor_cancel_pairs _ _ _ _ _

/-- Settles O15: in each class `2a` is `b + c` modulo 16. -/
theorem linearIsAnInvolution : Obligations.LinearIsAnInvolution := by
  intro j v
  have hAmounts : ((linA j).val + (linA j).val) % 16 = ((linB j).val + (linC j).val) % 16 := by
    revert j
    decide
  rw [linear_eq_linearByHalves, linear_eq_linearByHalves, linearByHalves_linearByHalves hAmounts]

/-! ### The key schedule (43_keyschedule.md rules R162 to R168) -/

theorem keyState_succ_of_even {m : Nat} (h : m % 2 = 0) (key : Key) :
    keyState key (m + 1) = { permP0 (mix (keyState key m)) with
      k7 := (permP0 (mix (keyState key m))).k7 ^^^ BitVec.ofNat 32 m } := by
  simp only [keyState, keyStep, h, if_true]

theorem keyState_succ_of_odd {m : Nat} (h : m % 2 = 1) (key : Key) :
    keyState key (m + 1) = { permP1 (mix (keyState key m)) with
      k7 := (permP1 (mix (keyState key m))).k7 ^^^ BitVec.ofNat 32 m } := by
  simp only [keyState, keyStep, h, Nat.one_ne_zero, if_false]

/-- Settles O16: of the two steps of an iteration the first is even and the second odd. -/
theorem keyStatesTwoPerIteration : Obligations.KeyStatesTwoPerIteration := by
  intro key i hOdd _
  obtain ⟨m, rfl⟩ : ∃ m, i = m + 1 := ⟨i - 1, by omega⟩
  exact ⟨keyState_succ_of_even (by omega) key, keyState_succ_of_odd hOdd key⟩

theorem getElem_expandKey (key : Key) (n : Nat) (h : n < 17) : (expandKey key)[n] = roundKey key n := by
  simp only [expandKey, Vector.getElem_ofFn]

theorem roundKey_of_even {n : Nat} (h : n % 2 = 0) (key : Key) :
    roundKey key n = ⟨(keyState key n).k0, (keyState key n).k1, (keyState key n).k2, (keyState key n).k3⟩ :=
  if_pos h

theorem roundKey_of_odd {n : Nat} (h : n % 2 = 1) (key : Key) :
    roundKey key n = ⟨(keyState key n).k4, (keyState key n).k5, (keyState key n).k6, (keyState key n).k7⟩ :=
  if_neg (by omega)

/-- Settles O17: the table's entries are the round keys, and key state 0 is the master key. -/
theorem roundKeysAreAlternateHalves : Obligations.RoundKeysAreAlternateHalves := fun key n =>
  ⟨fun h => (getElem_expandKey key n n.isLt).trans (roundKey_of_even h key),
    fun h => (getElem_expandKey key n n.isLt).trans (roundKey_of_odd h key),
    (getElem_expandKey key 0 (by decide)).trans (roundKey_of_even rfl key)⟩

theorem rot32_injective (a : Amount 32) : Function.Injective fun v => rot32 v a := by
  intro v v' h
  have hRest : 0 < 32 - a.val ∧ 32 - a.val < 32 := by have := a.property; omega
  obtain ⟨-, hUndo, -⟩ := rotateByTheRestUndoes
  have h' : rot32 v a = rot32 v' a := h
  rw [← hUndo v a ⟨_, hRest⟩ rfl, h', hUndo v' a ⟨_, hRest⟩ rfl]

/-- The second word of a mixer gives `y` back, and then the first gives `x`. -/
theorem mixer_injective {a b : Amount 32} {x y x' y' : Word} (h1 : rot32 x a ^^^ y = rot32 x' a ^^^ y')
    (h2 : rot32 y b ^^^ rot32 x a ^^^ y = rot32 y' b ^^^ rot32 x' a ^^^ y') : x = x' ∧ y = y' := by
  rw [BitVec.xor_assoc, BitVec.xor_assoc, h1, BitVec.xor_left_inj] at h2
  obtain rfl := rot32_injective _ h2
  exact ⟨rot32_injective _ ((BitVec.xor_left_inj _).mp h1), rfl⟩

/-- Round key 1 is the mix of words 4 to 7 of the master key. -/
theorem roundKey_one (key : Key) :
    roundKey key 1 = ⟨(mixM0 key.k4 key.k5).1, (mixM1 key.k6 key.k7).1, (mixM0 key.k4 key.k5).2,
      (mixM1 key.k6 key.k7).2⟩ := by
  rw [roundKey_of_odd rfl, keyState_succ_of_even rfl]
  simp [keyState, permP0, mix]

/-- Settles O18: round key 0 is the lower half of the key, and round key 1 the mixers of the upper half. -/
theorem roundKeyTableDeterminesTheKey : Obligations.RoundKeyTableDeterminesTheKey := by
  intro k k' h
  have hEntry (n : Nat) (hn : n < 17) : roundKey k n = roundKey k' n := by
    rw [← getElem_expandKey k n hn, ← getElem_expandKey k' n hn, h]
  have hLow := hEntry 0 (by decide)
  have hHigh := hEntry 1 (by decide)
  rw [roundKey_of_even rfl, roundKey_of_even rfl] at hLow
  rw [roundKey_one, roundKey_one] at hHigh
  simp only [Block.mk.injEq] at hLow hHigh
  obtain ⟨h0, h1, h2, h3⟩ := hLow
  obtain ⟨h45, h67, h45', h67'⟩ := hHigh
  obtain ⟨h4, h5⟩ := mixer_injective h45 h45'
  obtain ⟨h6, h7⟩ := mixer_injective h67 h67'
  cases k
  cases k'
  simp_all [keyState]

/-! ### The cipher (44_cipher.md rules R190 to R193) -/

theorem xorBlock_xorBlock (s r : Block) : xorBlock (xorBlock s r) r = s := by
  simp [xorBlock]

theorem lin4_lin4 (j : RoundClass) (b : Block) : lin4 j (lin4 j b) = b := by
  simp only [lin4, linearIsAnInvolution j _]

theorem decRound_encRound (i : RoundIndex) (s r : Block) : decRound i (encRound i s r) r = s := by
  rw [decRound, encRound, lin4_lin4, sboxInv_sbox, xorBlock_xorBlock]

theorem encRound_decRound (i : RoundIndex) (s r : Block) : encRound i (decRound i s r) r = s := by
  rw [decRound, encRound, xorBlock_xorBlock, sbox_sboxInv, lin4_lin4]

section Folds

variable {α β : Type} {f : β → α → β} {g : α → β → β}

/-- The inverses of a list of rounds, taken from the last back, undo the rounds. -/
theorem foldr_foldl_of_inverse (h : ∀ a b, g a (f b a) = b) (l : List α) (b : β) :
    l.foldr g (l.foldl f b) = b := by
  induction l generalizing b with
  | nil => rfl
  | cons a l ih => rw [List.foldl_cons, List.foldr_cons, ih, h]

theorem foldl_foldr_of_inverse (h : ∀ a b, f (g a b) a = b) (l : List α) (b : β) :
    l.foldl f (l.foldr g b) = b := by
  induction l with
  | nil => rfl
  | cons a l ih => rw [List.foldr_cons, List.foldl_cons, h, ih]

end Folds

/-- Settles O19: the whitening undoes itself, and each decryption round undoes its encryption round. -/
theorem decryptAndEncryptAreInverse : Obligations.DecryptAndEncryptAreInverse := by
  intro b k
  unfold decrypt encrypt
  dsimp only
  constructor
  · rw [xorBlock_xorBlock, foldr_foldl_of_inverse fun i s => decRound_encRound i s _]
  · rw [foldl_foldr_of_inverse fun i s => encRound_decRound i s _, xorBlock_xorBlock]

end Sys2Proof.Proofs
end

section
/-! PROOFS. 10_state.md: the invariant that every step keeps, and what changes DIN and KEY. -/

namespace Sys2Proof.Proofs

open Sys2Proof.Machine Sys2Proof.Statements

/-! ### The invariant (30_encoding.md section 4) -/

theorem errcodeAgrees_statusRaise (e : CmdError) (t : Status) : ErrcodeAgrees (statusRaise e t) := by
  cases e <;> simp [ErrcodeAgrees, errorCode]

theorem errcodeAgrees_statusClear {t : Status} (h : ErrcodeAgrees t) (v : Word) : ErrcodeAgrees (statusClear v t) := by
  cases hv : v.getLsbD 2 with
  | true => simp [-BitVec.getLsbD_eq_getElem, ErrcodeAgrees, hv]
  | false => simpa [-BitVec.getLsbD_eq_getElem, ErrcodeAgrees, hv] using h

/-- Settles O23. In each case of a step: what it does to ERR and ERRCODE, and that it leaves BUSY=0, or the command in
flight with its inputs, or, if it is an accepted START, loads LATCH from what it stores. -/
theorem stepKeepsInvariant : Obligations.StepKeepsInvariant := by
  intro s t ⟨hParams, hErr, hBusy⟩ h
  cases stepCase_of_step h with
  | reset hr ht => subst ht; exact ⟨hParams, rfl, fun hb => nomatch hb⟩
  | completion hs hb dout rk ht => subst ht; exact ⟨hParams, hErr, fun hb => nomatch hb⟩
  | quiet hr hs hw replies ht => subst ht; exact ⟨hParams, hErr, hBusy⟩
  | statusWrite v hw ht =>
    subst ht
    refine ⟨hParams, errcodeAgrees_statusClear hErr v, fun hb => ?_⟩
    obtain ⟨hDone, hLatch⟩ := hBusy hb
    exact ⟨by simp [hDone], hLatch⟩
  | busyWrite r v hw hg hb ht => subst ht; exact ⟨hParams, errcodeAgrees_statusRaise _ _, hBusy⟩
  | dinWrite k v hw hb ht | keyWrite k v hw hb ht | configured v hw hb hv ht =>
    subst ht; exact ⟨hParams, hErr, fun hb' => absurd hb' (by simp [hb])⟩
  | refusedOp v hw hb hv ho ht | refusedAmt v hw hb hv ho ha ht =>
    subst ht; exact ⟨hParams, errcodeAgrees_statusRaise _ _, fun hb' => absurd hb' (by simp [hb])⟩
  | accepted v hw hb hv ht =>
    subst ht
    obtain ⟨-, hOp, hAmt⟩ := (acceptable_iff _ _).mp hv
    exact ⟨hParams, hErr, fun _ => ⟨rfl, ⟨hOp, hAmt⟩, rfl⟩⟩

/-- Settles O22: the reset values are evaluated. -/
theorem resetMeetsInvariant : Obligations.ResetMeetsInvariant := by
  unfold Obligations.ResetMeetsInvariant
  decide

/-! ### What changes DIN and KEY (10_state.md rules R34 and R36) -/

/-- Settles O48: of the cases of a step only the DIN write and the KEY write touch an input, a reset apart. -/
theorem inputsChangeOnlyByHostWritesAndReset : Obligations.InputsChangeOnlyByHostWritesAndReset := by
  intro s t h
  cases stepCase_of_step h with
  | reset hr ht => exact ⟨.inr (.inl hr), .inr (.inl hr)⟩
  | dinWrite k v hw hb ht => subst ht; exact ⟨.inr (.inr ⟨hb, k, v, hw, rfl⟩), .inl rfl⟩
  | keyWrite k v hw hb ht => subst ht; exact ⟨.inl rfl, .inr (.inr ⟨hb, k, v, hw, rfl⟩)⟩
  | completion hs hb dout rk ht | quiet hr hs hw replies ht | statusWrite v hw ht
  | busyWrite r v hw hg hb ht | configured v hw hb hv ht | refusedOp v hw hb hv ho ht
  | refusedAmt v hw hb hv ho ha ht | accepted v hw hb hv ht =>
    subst ht; exact ⟨.inl rfl, .inl rfl⟩

end Sys2Proof.Proofs
end

section
/-! PROOFS. 30_encoding.md rules R93 to R95: what a write of a command word leaves unchanged, the commands by their
acceptance and completion, and what a completion depends on. -/

namespace Sys2Proof.Proofs

open Sys2Proof.Machine Sys2Proof.Statements

/-! ### Every write of a command word -/

/-- A register but CTRL and STATUS reads nothing that a command word's write touches. -/
theorem readReg_ctrl_status_latch {r : Reg} (hCtrl : r ≠ .ctrl) (hStatus : r ≠ .status) (s : State) (c : Ctrl)
    (t : Status) (l : Latch) : readReg r { s with ctrl := c, status := t, latch := l } = readReg r s := by
  cases r with
  | ctrl => exact absurd rfl hCtrl
  | status => exact absurd rfl hStatus
  | id | din k | dout k | key k | rk n k => rfl

/-- A command word's write changes CTRL, STATUS and LATCH only. -/
theorem exec_next {i : Instr} {s t : State} (h : exec i s = .next t) :
    t = { s with ctrl := t.ctrl, status := t.status, latch := t.latch } := by
  obtain ⟨op, f, e | e⟩ := exec_cases i s <;> obtain rfl := Host.Outcome.next.inj (e.symm.trans h)
  · rcases configure_cases op f s with ⟨-, e⟩ | ⟨-, e⟩ <;> rw [e] <;> rfl
  · rcases issue_cases op f s with ⟨-, e⟩ | ⟨-, -, e⟩ | ⟨-, -, -, e⟩ | ⟨-, -, -, e⟩ <;> rw [e] <;> rfl

/-- Settles O40: `exec_next` for every state; while BUSY=1 the write is discarded. -/
theorem commandWriteFrame : Obligations.CommandWriteFrame := by
  intro i s t h
  have hBusy (hb : s.status.busy = true) : t.ctrl = s.ctrl ∧ t.latch = s.latch ∧ t.status.busy = true := by
    obtain rfl := Host.Outcome.next.inj ((exec_of_busy hb i).symm.trans h)
    exact ⟨rfl, rfl, hb⟩
  have hRead (r : Reg) (hCtrl : r ≠ .ctrl) (hStatus : r ≠ .status) : readReg r t = readReg r s := by
    rw [exec_next h, readReg_ctrl_status_latch hCtrl hStatus]
  rw [exec_next h] at hBusy hRead ⊢
  exact ⟨rfl, rfl, rfl, rfl, rfl, rfl, rfl, rfl, hBusy, hRead⟩

theorem issue_ctrl_of_idle {s : State} (hb : s.status.busy = false) (op : BitVec 4) (f : Fields) :
    (issue op f s).ctrl = ⟨op, f.rclass, f.amt, f.ie⟩ := by
  rcases issue_cases op f s with ⟨hb', -⟩ | ⟨-, -, e⟩ | ⟨-, -, -, e⟩ | ⟨-, -, -, e⟩
  · simp [hb] at hb'
  all_goals rw [e]; rfl

theorem packWord_and_not_start (start : Bool) (op : BitVec 4) (f : Fields) :
    packWord start op f &&& 0x7FFFFFFF#32 = packWord false op f := by
  refine BitVec.eq_of_getLsbD_eq fun i hi => ?_
  rw [BitVec.getLsbD_and, getLsbD_packWord _ _ _ hi, getLsbD_packWord _ _ _ hi]
  interval_cases i <;> simp

/-- CTRL reads as the word whose fields it stores, START and the reserved bits 0. -/
theorem ctrlWord_of_word (v : Word) :
    ctrlWord ⟨wordOp v, (wordFields v).rclass, (wordFields v).amt, (wordFields v).ie⟩ = v &&& 0x00011F3F#32 := by
  rw [ctrlWord, ← packWord_and_not_start (wordStart v), packWord_of_word, BitVec.and_assoc]
  rfl

/-- Settles O28: refused or accepted, an idle write stores the word's fields. -/
theorem ctrlStoresItsFields : Obligations.CtrlStoresItsFields := by
  intro v s
  refine ⟨_, exec_decodeWord v s, fun hb => ?_, fun hb => ?_⟩
  · have hCtrl : (ctrlWritePseudocode v s).ctrl =
        ⟨wordOp v, (wordFields v).rclass, (wordFields v).amt, (wordFields v).ie⟩ := by
      cases hv : wordStart v with
      | true => rw [ctrlWritePseudocode_of_start hv, issue_ctrl_of_idle hb]
      | false => rw [ctrlWritePseudocode_of_not_start hv, configure_of_idle hb]
    exact ⟨hCtrl, by rw [readReg, hCtrl, ctrlWord_of_word]⟩
  · rw [ctrlWritePseudocode, if_pos hb]
    rfl

/-! ### The dispatch table (30_encoding.md rule R95) -/

theorem takeTurn_sequencer_of_busy {s : State} (hb : s.status.busy = true) : takeTurn .sequencer s = complete s :=
  if_pos hb

theorem cmdOf_eq_none_iff (op : BitVec 4) : cmdOf op = none ↔ op = 0#4 ∨ 11 ≤ op.toNat := by
  revert op
  decide

theorem complete_of_reserved {s : State} (h : cmdOf s.latch.op = none) : complete s = .fault .latchedReservedOp := by
  simp only [complete, h]

section Completions

variable {s : State}

theorem complete_enc (h : s.latch.op = 0x1#4) :
    complete s = .next (completed (encrypt s.latch.din s.latch.key) (expandKey s.latch.key) s) := by
  simp only [complete, h]
  rfl

theorem complete_dec (h : s.latch.op = 0x2#4) :
    complete s = .next (completed (decrypt s.latch.din s.latch.key) (expandKey s.latch.key) s) := by
  simp only [complete, h]
  rfl

theorem complete_keyexp (h : s.latch.op = 0x3#4) :
    complete s = .next (completed s.dout (expandKey s.latch.key) s) := by
  simp only [complete, h]
  rfl

theorem complete_sbox (h : s.latch.op = 0x4#4) : complete s = .next (completed (sbox s.latch.din) s.rk s) := by
  simp only [complete, h]
  rfl

theorem complete_sboxinv (h : s.latch.op = 0x5#4) :
    complete s = .next (completed (sboxInv s.latch.din) s.rk s) := by
  simp only [complete, h]
  rfl

theorem complete_lin (h : s.latch.op = 0x6#4) :
    complete s = .next (completed (lin4 (classOf s.latch.rclass) s.latch.din) s.rk s) := by
  simp only [complete, h]
  rfl

theorem complete_eq_completeRot16 (h : s.latch.op = 0x7#4) : complete s = completeRot16 s := by
  simp only [complete, h]
  rfl

theorem complete_rot16 (h : s.latch.op = 0x7#4) {a : Amount 16} (ha : amountOf 16 s.latch.amt = some a) :
    complete s =
      .next (completed (firstWord ((rot16 (s.latch.din.w.extractLsb' 0 16) a).setWidth 32)) s.rk s) := by
  rw [complete_eq_completeRot16 h]
  simp only [completeRot16, ha]
  rfl

theorem complete_rot16_of_illegal (h : s.latch.op = 0x7#4) (ha : amountOf 16 s.latch.amt = none) :
    complete s = .fault .latchedIllegalAmount := by
  rw [complete_eq_completeRot16 h]
  simp only [completeRot16, ha]

theorem complete_eq_completeRot32 (h : s.latch.op = 0x8#4) : complete s = completeRot32 s := by
  simp only [complete, h]
  rfl

theorem complete_rot32 (h : s.latch.op = 0x8#4) {a : Amount 32} (ha : amountOf 32 s.latch.amt = some a) :
    complete s = .next (completed (firstWord (rot32 s.latch.din.w a)) s.rk s) := by
  rw [complete_eq_completeRot32 h]
  simp only [completeRot32, ha]
  rfl

theorem complete_rot32_of_illegal (h : s.latch.op = 0x8#4) (ha : amountOf 32 s.latch.amt = none) :
    complete s = .fault .latchedIllegalAmount := by
  rw [complete_eq_completeRot32 h]
  simp only [completeRot32, ha]

theorem complete_m0 (h : s.latch.op = 0x9#4) : complete s = .next (completed (onPairs mixM0 s.latch.din) s.rk s) := by
  simp only [complete, h]
  rfl

theorem complete_m1 (h : s.latch.op = 0xA#4) : complete s = .next (completed (onPairs mixM1 s.latch.din) s.rk s) := by
  simp only [complete, h]
  rfl

end Completions

/-- RCLASS as the class it is. -/
theorem classOf_eq {rclass : BitVec 2} {j : RoundClass} (h : rclass.toNat = j.val) : classOf rclass = j :=
  Fin.ext h

/-- No step leaves a reserved OP in flight: the invariant after it says that LATCH is legal. -/
theorem latch_op_of_step {s t : State} (hs : Inv s) (h : step s = .next t) (hb : t.status.busy = true) :
    1 ≤ t.latch.op.toNat ∧ t.latch.op.toNat ≤ 10 := by
  obtain ⟨-, -, hBusy⟩ := stepKeepsInvariant s t hs h
  obtain ⟨-, ⟨hOp, -⟩, -⟩ := hBusy hb
  rcases (opPresent_iff _ _).mp hOp with hRange | ⟨-, hRange⟩ <;> omega

/-- Settles O41: the completion of each OP, and the invariant for the OP in flight. -/
theorem performIsTheDispatchTable : Obligations.PerformIsTheDispatchTable := by
  refine ⟨fun s t => latch_op_of_step, fun s hb => ?_⟩
  rw [takeTurn_sequencer_of_busy hb]
  refine ⟨fun hOp t ht => ?_, complete_enc, complete_dec, complete_keyexp, complete_sbox, complete_sboxinv,
    fun j hOp hClass => ?_, fun a hOp ha => complete_rot16 hOp (amountOf_eq_some.mpr ha.symm),
    fun a hOp ha => complete_rot32 hOp (amountOf_eq_some.mpr ha.symm), complete_m0, complete_m1⟩
  · rw [complete_of_reserved ((cmdOf_eq_none_iff _).mpr hOp)] at ht
    cases ht
  · rw [complete_lin hOp, classOf_eq hClass]
    rfl

/-- Settles O42: while BUSY=0 the turn is no completion, and an unlatchable command has none to give. -/
theorem sequencerOtherwiseWaitsOrStops : Obligations.SequencerOtherwiseWaitsOrStops := by
  intro s
  refine ⟨fun hb => if_neg (by simp [hb]), fun hb hOp => ?_, fun hb hOp hAmt => ?_, fun hb hOp hAmt => ?_⟩
  · rw [takeTurn_sequencer_of_busy hb, complete_of_reserved ((cmdOf_eq_none_iff _).mpr hOp)]
  · have hNone : amountOf 16 s.latch.amt = none := by
      rcases hAmt with hAmt | hAmt <;> simp [amountOf, hAmt]
    rw [takeTurn_sequencer_of_busy hb, complete_rot16_of_illegal hOp hNone]
  · rw [takeTurn_sequencer_of_busy hb, complete_rot32_of_illegal hOp (by simp [amountOf, hAmt])]

/-! ### The commands, issued and completed -/

theorem issue_of_acceptable {s : State} {op : BitVec 4} {f : Fields} (hb : s.status.busy = false)
    (ho : opPresent s.params op = true) (ha : amtLegal op f.amt = true) : issue op f s = started op f s := by
  simp only [issue, hb, ho, ha, Bool.not_true, Bool.false_eq_true, if_false]
  rfl

/-- A command that the block has, with a legal AMT, runs as its completion with it in LATCH says. -/
theorem runsAs_of_complete {c : Cmd} {f : Fields} {s : State} {dout : State → Block} {rk : State → RoundKeyTable}
    (hb : s.status.busy = false) (ho : primitive c = true → s.params.hasPrimOps = true)
    (ha : amtLegal (opcode c) f.amt = true)
    (hc : ∀ u, u.latch = latched (opcode c) f s → complete u = .next (completed (dout u) (rk u) u)) :
    RunsAs (c.instr f) (opcode c) f s dout rk := by
  have hPresent : opPresent s.params (opcode c) = true := by
    rw [opPresent_opcode]
    cases hPrimitive : primitive c with
    | true => exact ho hPrimitive
    | false => rfl
  exact ⟨(exec_instr c f s).trans (congrArg _ (issue_of_acceptable hb hPresent ha)),
    fun u hu hLatch => (takeTurn_sequencer_of_busy hu).trans (hc u hLatch)⟩

/-- The known answer of 95_test_vectors.md V-KAT. -/
theorem encrypt_known_answer :
    encrypt ⟨0, 0, 0, 0⟩
        ⟨0x03020100, 0x07060504, 0x0b0a0908, 0x0f0e0d0c, 0x13121110, 0x17161514, 0x1b1a1918, 0x1f1e1d1c⟩ =
      ⟨0x3f09abf4, 0x00e3bd74, 0x03260def, 0xb7c53912⟩ := by
  decide +kernel

/-- Settles O29: the rounds are the two folds written out, and decryption undoes the known answer. -/
theorem encAndDecRun : Obligations.EncAndDecRun := by
  refine ⟨fun f s hb => ⟨?_, ?_⟩, fun b k => ⟨?_, ?_⟩, encrypt_known_answer, ?_⟩
  · refine runsAs_of_complete (c := .enc) hb (fun h => nomatch h) rfl fun u hu => ?_
    rw [complete_enc (by rw [hu]; rfl), hu]
    rfl
  · refine runsAs_of_complete (c := .dec) hb (fun h => nomatch h) rfl fun u hu => ?_
    rw [complete_dec (by rw [hu]; rfl), hu]
    rfl
  · unfold encrypt; rfl
  · unfold decrypt; rfl
  · rw [← encrypt_known_answer]
    exact (decryptAndEncryptAreInverse _ _).1

/-- Settles O30: KEYEXP is no primitive command, and its completion reads KEY only. -/
theorem keyexpRuns : Obligations.KeyexpRuns := by
  intro f s hb
  refine runsAs_of_complete (c := .keyexp) hb (fun h => nomatch h) rfl fun u hu => ?_
  rw [complete_keyexp (by rw [hu]; rfl), hu]
  rfl

/-- Settles O31: the completions of the two OPs, with LATCH the one of the START. -/
theorem sboxAndSboxinvRun : Obligations.SboxAndSboxinvRun := by
  intro f s hb hp
  constructor
  · refine runsAs_of_complete (c := .sbox) hb (fun _ => hp) rfl fun u hu => ?_
    rw [complete_sbox (by rw [hu]; rfl), hu]
    rfl
  · refine runsAs_of_complete (c := .sboxinv) hb (fun _ => hp) rfl fun u hu => ?_
    rw [complete_sboxinv (by rw [hu]; rfl), hu]
    rfl

/-- Settles O32: every RCLASS is a class, and the completion reads it back. -/
theorem linRuns : Obligations.LinRuns := by
  intro f s j hb hp hClass
  refine runsAs_of_complete (c := .lin) hb (fun _ => hp) rfl fun u hu => ?_
  rw [complete_lin (by rw [hu]; rfl), hu, latched, classOf_eq hClass.symm]
  rfl

/-- Settles O33: an amount of the contract is legal, and the completion reads it back. -/
theorem rotSixteenRuns : Obligations.RotSixteenRuns := by
  intro f s a hb hp ha
  have hAmount := amountOf_eq_some.mpr ha
  refine runsAs_of_complete (c := .rot16) hb (fun _ => hp) (Option.isSome_of_eq_some hAmount) fun u hu => ?_
  rw [complete_rot16 (by rw [hu]; rfl) (by rw [hu]; exact hAmount), hu]
  rfl

/-- Settles O34: an amount of the contract is legal, and the completion reads it back. -/
theorem rotThirtyTwoRuns : Obligations.RotThirtyTwoRuns := by
  intro f s a hb hp ha
  have hAmount := amountOf_eq_some.mpr ha
  refine runsAs_of_complete (c := .rot32) hb (fun _ => hp) (Option.isSome_of_eq_some hAmount) fun u hu => ?_
  rw [complete_rot32 (by rw [hu]; rfl) (by rw [hu]; exact hAmount), hu]
  rfl

/-- The two mixers on a block, with the library's rotations (43_keyschedule.md rules R160 and R161). -/
theorem onPairs_mixer_eq {a b : Amount 32} (d : Block) :
    onPairs (fun x y => (rot32 x a ^^^ y, rot32 y b ^^^ rot32 x a ^^^ y)) d =
      ⟨d.w.rotateLeft a.val ^^^ d.x, d.x.rotateLeft b.val ^^^ (d.w.rotateLeft a.val ^^^ d.x),
        d.y.rotateLeft a.val ^^^ d.z, d.z.rotateLeft b.val ^^^ (d.y.rotateLeft a.val ^^^ d.z)⟩ := by
  simp only [onPairs, rot32_eq_rotateLeft, BitVec.xor_assoc]

/-- Settles O35: both completions are a mixer on the two pairs, with their own amounts. -/
theorem mixersRun : Obligations.MixersRun := by
  intro f s hb hp
  constructor
  · refine runsAs_of_complete (c := .m0) hb (fun _ => hp) rfl fun u hu => ?_
    rw [complete_m0 (by rw [hu]; rfl), hu]
    exact congrArg (fun b => Host.Outcome.next (completed b u.rk u)) (onPairs_mixer_eq s.din)
  · refine runsAs_of_complete (c := .m1) hb (fun _ => hp) rfl fun u hu => ?_
    rw [complete_m1 (by rw [hu]; rfl), hu]
    exact congrArg (fun b => Host.Outcome.next (completed b u.rk u)) (onPairs_mixer_eq s.din)

/-! ### What a completion depends on (10_state.md rule R42) -/

/-- What a completion does is settled by LATCH: it writes DOUT, the table or both with values that LATCH gives, or it
stops. -/
theorem complete_of_latch (l : Latch) :
    (∃ b, l.op ≠ 3#4 ∧ ∀ s, s.latch = l → complete s = .next (completed b s.rk s)) ∨
    (l.op = 3#4 ∧ ∀ s, s.latch = l → complete s = .next (completed s.dout (expandKey l.key) s)) ∨
    (∃ b, l.op ∈ [1#4, 2#4] ∧ ∀ s, s.latch = l → complete s = .next (completed b (expandKey l.key) s)) ∨
    ((cmdOf l.op = none ∨ amtLegal l.op l.amt = false) ∧ ∃ e, ∀ s, s.latch = l → complete s = .fault e) := by
  cases hc : cmdOf l.op with
  | none => exact .inr (.inr (.inr ⟨.inl rfl, _, fun s hs => complete_of_reserved (hs ▸ hc)⟩))
  | some c =>
    have hOp := opcode_of_cmdOf hc
    have hNe (h3 : opcode c ≠ 3#4) : l.op ≠ 3#4 := hOp ▸ h3
    cases c with
    | enc => exact .inr (.inr (.inl ⟨_, hOp ▸ by decide, fun s hs => hs ▸ complete_enc (hs ▸ hOp)⟩))
    | dec => exact .inr (.inr (.inl ⟨_, hOp ▸ by decide, fun s hs => hs ▸ complete_dec (hs ▸ hOp)⟩))
    | keyexp => exact .inr (.inl ⟨hOp, fun s hs => hs ▸ complete_keyexp (hs ▸ hOp)⟩)
    | sbox => exact .inl ⟨_, hNe (by decide), fun s hs => hs ▸ complete_sbox (hs ▸ hOp)⟩
    | sboxinv => exact .inl ⟨_, hNe (by decide), fun s hs => hs ▸ complete_sboxinv (hs ▸ hOp)⟩
    | lin => exact .inl ⟨_, hNe (by decide), fun s hs => hs ▸ complete_lin (hs ▸ hOp)⟩
    | m0 => exact .inl ⟨_, hNe (by decide), fun s hs => hs ▸ complete_m0 (hs ▸ hOp)⟩
    | m1 => exact .inl ⟨_, hNe (by decide), fun s hs => hs ▸ complete_m1 (hs ▸ hOp)⟩
    | rot16 =>
      cases ha : amountOf 16 l.amt with
      | some a => exact .inl ⟨_, hNe (by decide), fun s hs => hs ▸ complete_rot16 (hs ▸ hOp) (hs ▸ ha)⟩
      | none =>
        have hIllegal : amtLegal (opcode .rot16) l.amt = false := congrArg Option.isSome ha
        exact .inr (.inr (.inr ⟨.inr (hOp ▸ hIllegal), _,
          fun s hs => complete_rot16_of_illegal (hs ▸ hOp) (hs ▸ ha)⟩))
    | rot32 =>
      cases ha : amountOf 32 l.amt with
      | some a => exact .inl ⟨_, hNe (by decide), fun s hs => hs ▸ complete_rot32 (hs ▸ hOp) (hs ▸ ha)⟩
      | none =>
        have hIllegal : amtLegal (opcode .rot32) l.amt = false := congrArg Option.isSome ha
        exact .inr (.inr (.inr ⟨.inr (hOp ▸ hIllegal), _,
          fun s hs => complete_rot32_of_illegal (hs ▸ hOp) (hs ▸ ha)⟩))

/-- Settles O43: both completions are the one LATCH settles. -/
theorem resultDependsOnTheLatchAlone : Obligations.ResultDependsOnTheLatchAlone := by
  intro s u s' u' hs hu hLatch hs' hu'
  rw [takeTurn_sequencer_of_busy hs] at hs'
  rw [takeTurn_sequencer_of_busy hu] at hu'
  rcases complete_of_latch s.latch with ⟨b, -, h⟩ | ⟨-, h⟩ | ⟨b, -, h⟩ | ⟨-, e, h⟩ <;>
    rw [h s rfl] at hs' <;> rw [h u hLatch.symm] at hu' <;> cases hs' <;> cases hu'
  · exact ⟨.inl rfl, .inr ⟨rfl, rfl⟩⟩
  · exact ⟨.inr ⟨rfl, rfl⟩, .inl rfl⟩
  · exact ⟨.inl rfl, .inl rfl⟩

/-! ### What changes DOUT and the table (10_state.md rules R35 and R37) -/

/-- A step that completes a command, by the completion itself. -/
theorem complete_of_step {s t : State} (hs : SequencerNext s) (hb : s.status.busy = true) (h : step s = .next t) :
    complete { s with agenda := s.agenda.tail } = .next t := by
  rcases step_cases h with ⟨rest, ha, -⟩ | ⟨-, ⟨hb', -⟩ | ⟨-, hc⟩⟩ | ⟨rest, ha, -, -⟩ | ⟨a, rest, ha, -⟩
  · exact absurd ⟨rest, ha⟩ (not_resetNext_of_sequencerNext hs)
  · simp [hb] at hb'
  · exact hc
  · simp [SequencerNext, ha] at hs
  · simp [SequencerNext, ha] at hs

/-- Settles O49: no case of a step but a reset and the completion touches an output, and LATCH settles which the
completion writes. -/
theorem outputsChangeOnlyByCompletionAndReset : Obligations.OutputsChangeOnlyByCompletionAndReset := by
  intro s t h
  cases stepCase_of_step h with
  | reset hr ht => exact ⟨.inr (.inl hr), .inr (.inl hr)⟩
  | completion hs hb dout rk ht =>
    have hc := complete_of_step hs hb h
    rcases complete_of_latch s.latch with ⟨b, hOp, e⟩ | ⟨hOp, e⟩ | ⟨b, hOp, e⟩ | ⟨-, r, e⟩ <;>
      rw [e { s with agenda := s.agenda.tail } rfl] at hc <;> cases hc
    · exact ⟨.inr (.inr ⟨hb, hs, hOp, rfl⟩), .inl rfl⟩
    · exact ⟨.inl rfl, .inr (.inr ⟨hb, hs, by simp [hOp], rfl⟩)⟩
    · have hNe : s.latch.op ≠ 3#4 := fun h3 => by simp [h3] at hOp
      have hMem : s.latch.op ∈ [1#4, 2#4, 3#4] := List.mem_append_left [3#4] hOp
      exact ⟨.inr (.inr ⟨hb, hs, hNe, rfl⟩), .inr (.inr ⟨hb, hs, hMem, rfl⟩)⟩
  | quiet hr hs hw replies ht | statusWrite v hw ht | busyWrite r v hw hg hb ht | dinWrite k v hw hb ht
  | keyWrite k v hw hb ht | configured v hw hb hv ht | refusedOp v hw hb hv ho ht
  | refusedAmt v hw hb hv ho ha ht | accepted v hw hb hv ht =>
    subst ht; exact ⟨.inl rfl, .inl rfl⟩

end Sys2Proof.Proofs
end

section
/-! PROOFS. 20_memory.md and 70_reset_and_hazards.md: the register map, the turns of the schedule, and latencies. -/

namespace Sys2Proof.Proofs

open Sys2Proof.Machine Sys2Proof.Statements

/-! ### The register map (20_memory.md rule R61) -/

/-- The offsets that are no register: misaligned ones and the holes of the table. -/
theorem regAt_eq_none_iff (off : Nat) :
    regAt off = none ↔ (off % 4 ≠ 0 ∨ off = 0x00C ∨ (0x030 ≤ off ∧ off ≤ 0x03C) ∨
      (0x060 ≤ off ∧ off ≤ 0x0FC) ∨ 0x210 ≤ off) := by
  unfold regAt
  split_ifs <;> simp only [true_iff, false_iff] <;> omega

theorem regOffset_mod_four (r : Reg) : regOffset r % 4 = 0 := by
  cases r <;> simp only [regOffset] <;> omega

theorem writable_eq_false_iff (r : Reg) :
    writable r = false ↔ r = .id ∨ (∃ k, r = .dout k) ∨ ∃ n k, r = .rk n k := by
  cases r <;> simp [writable]

/-- Settles O52: the offsets are those of `regOffset`, whose inverse is `regAt`. -/
theorem registerMapIsTheTable : Obligations.RegisterMapIsTheTable :=
  ⟨⟨regAt_regOffset .id, regAt_regOffset .ctrl, regAt_regOffset .status, fun k => regAt_regOffset (.din k),
      fun k => regAt_regOffset (.dout k), fun k => regAt_regOffset (.key k), fun r k => regAt_regOffset (.rk r k)⟩,
    fun r => ⟨regAt_regOffset r, regOffset_lt r, regOffset_mod_four r⟩,
    fun _ _ => eq_regOffset_of_regAt, regAt_eq_none_iff, writable_eq_false_iff⟩

/-! ### What the registers read as (10_state.md) -/

/-- Settles O60: CTRL by the layout of the command word, every other register by its own word. -/
theorem registersReadTheirWords : Obligations.RegistersReadTheirWords := by
  intro s
  refine ⟨rfl, ⟨rfl, rfl, rfl, rfl⟩, ⟨rfl, rfl, rfl, rfl⟩, ⟨rfl, rfl, rfl, rfl, rfl, rfl, rfl, rfl⟩,
    fun r => ⟨rfl, rfl, rfl, rfl⟩, fun i hi => ?_⟩
  rw [readReg, ctrlWord, getLsbD_packWord _ _ _ hi]
  simp

/-- STATUS bit by bit (10_state.md rule R29). -/
theorem getLsbD_statusWord (t : Status) (i : Nat) (hi : i < 32) :
    (statusWord t).getLsbD i =
      if i = 0 then t.busy else if i = 1 then t.done else if i = 2 then t.err
      else if 8 ≤ i ∧ i ≤ 11 then t.errcode.getLsbD (i - 8) else false := by
  simp only [statusWord, BitVec.getLsbD_append]
  interval_cases i <;> simp

/-- A write of STATUS as the two clears it makes. -/
theorem statusClear_eq (v : Word) (t : Status) :
    statusClear v t =
      { busy := t.busy
        done := if v.getLsbD 1 then false else t.done
        err := if v.getLsbD 2 then false else t.err
        errcode := if v.getLsbD 2 then 0#4 else t.errcode } := by
  unfold statusClear
  cases v.getLsbD 1 <;> cases v.getLsbD 2 <;> simp

/-- Settles O57: the layout of the word, and the one write that `writeStatus` is. -/
theorem statusLayoutAndWriteOneToClear : Obligations.StatusLayoutAndWriteOneToClear := by
  refine ⟨fun s i hi => getLsbD_statusWord s.status i hi, fun s v rest h => ?_, by decide⟩
  rw [step_of_nextWrites ⟨rest, h⟩ rfl, answered, h, writeReg, writeStatus, statusClear_eq]
  rfl

/-! ### Turns of the schedule -/

/-- Settles O21: the step is `resetBlock`, whose every register is zero. -/
theorem resetTurnClearsTheBlock : Obligations.ResetTurnClearsTheBlock := by
  intro s rest h
  refine ⟨_, step_of_agenda_cons h, rfl, rfl, rfl, rfl, rfl, fun r => ?_, rfl, rfl, rfl, rfl⟩
  exact Vector.getElem_replicate r.isLt

/-- Settles O26: the two forms of a CTRL write by `step_of_nextWrites`, the second through the encoding. -/
theorem stepRunsTheDecodedCommand : Obligations.StepRunsTheDecodedCommand := by
  have hWrite (s : State) (v : Word) (rest : List Turn) (h : s.agenda = wr s.params .ctrl v :: rest) :
      step s = exec (decodeWord v) { s with agenda := rest, replies := s.replies ++ [.write .ok] } := by
    rw [step_of_nextWrites ⟨rest, h⟩ rfl, answered, h]
    rfl
  refine ⟨hWrite, fun s i rest hi h => ?_, fun s t rest => step_of_agenda_cons, fun s => step_of_agenda_nil⟩
  rw [hWrite s _ rest h, decodeUndoesEncode i hi]

/-- Settles O55: no offset of the window is the address's. -/
theorem accessesOutsideTheWindowAreNotDecoded : Obligations.AccessesOutsideTheWindowAreNotDecoded := by
  intro s a rest h hOutside
  have hWindow : windowOffset s.params (accessAddr a) = none := if_neg (by omega)
  rw [step_of_agenda_cons h]
  simp only [takeTurn, busAccess, hWindow]

/-- Settles O59: the gated clock by BUSY, and the access during reset in every state. -/
theorem platformRulesAreChecked : Obligations.PlatformRulesAreChecked := by
  intro s rest
  refine ⟨fun h hb => ?_, fun h hb => ?_, fun a h => step_of_agenda_cons h⟩
  · rw [step_of_agenda_cons h]
    exact if_neg (by simp [hb])
  · rw [step_of_agenda_cons h]
    exact if_pos hb

/-! ### A word written to DIN or KEY and read back (10_state.md rules R34 and R36) -/

@[simp] theorem blockWord_setBlockWord (b : Block) (k m : Fin 4) (v : Word) :
    blockWord (setBlockWord b k v) m = if m = k then v else blockWord b m := by
  fin_cases k <;> fin_cases m <;> rfl

@[simp] theorem keyWord_setKeyWord (b : Key) (k m : Fin 8) (v : Word) :
    keyWord (setKeyWord b k v) m = if m = k then v else keyWord b m := by
  fin_cases k <;> fin_cases m <;> rfl

/-- A step, and then the read of a register. -/
theorem run_step_then_rd {s u : State} {r : Reg} {rest : List Turn} (hStep : step s = .next u)
    (h : u.agenda = rd u.params r :: rest) :
    Sys2Proof.core.run 2 s =
      .next { u with agenda := rest, replies := u.replies ++ [.read .ok (readReg r u)] } :=
  (run_succ_of_step 1 hStep).trans (run_succ_of_step 0 (step_of_rd h))

theorem step_din_of_idle {s : State} {k : Fin 4} {v : Word} (hw : NextWrites s (.din k) v)
    (hb : s.status.busy = false) : step s = .next { answered s with din := setBlockWord s.din k v } :=
  (step_of_nextWrites hw rfl).trans (congrArg _ (if_neg (by simp [hb])))

theorem step_key_of_idle {s : State} {k : Fin 8} {v : Word} (hw : NextWrites s (.key k) v)
    (hb : s.status.busy = false) : step s = .next { answered s with key := setKeyWord s.key k v } :=
  (step_of_nextWrites hw rfl).trans (congrArg _ (if_neg (by simp [hb])))

/-- Settles O56: the write and the read each by their step. -/
theorem inputWritesReadBack : Obligations.InputWritesReadBack := by
  refine ⟨fun s k v rest hb h => ⟨setBlockWord s.din k v, ?_, by simp, fun m hm => by simp [hm]⟩,
    fun s k v rest hb h => ⟨setKeyWord s.key k v, ?_, by simp, fun m hm => by simp [hm]⟩⟩
  · rw [run_step_then_rd (r := .din k) (rest := rest) (step_din_of_idle ⟨_, h⟩ hb) (by rw [answered, h]; rfl)]
    simp [readReg]
  · rw [run_step_then_rd (r := .key k) (rest := rest) (step_key_of_idle ⟨_, h⟩ hb) (by rw [answered, h]; rfl)]
    simp [readReg]

/-! ### Latencies (70_reset_and_hazards.md rule R268) -/

/-- An answer with other latencies in its state, where it has one. -/
def resultWithLatencies (e d k p : Nat) (r : Result) : Result :=
  match r with
  | .next s => .next (withLatencies e d k p s)
  | .fault f => .fault f
  | .refused f => .refused f

/-- An operation of the block that never looks at a latency. -/
def LatencyBlind (f : State → Result) : Prop :=
  ∀ (e d k p : Nat) (s : State), f (withLatencies e d k p s) = resultWithLatencies e d k p (f s)

/-- A write that is discarded while busy is as blind to latencies as what it does while idle. -/
theorem latencyBlind_unless_busy {g : State → State}
    (hg : ∀ e d k p s, g (withLatencies e d k p s) = withLatencies e d k p (g s)) :
    LatencyBlind fun s => .next (if s.status.busy then raiseError .busyWrite s else g s) := by
  intro e d k p s
  have hBusy : (withLatencies e d k p s).status.busy = s.status.busy := rfl
  simp only [hBusy]
  split_ifs
  · rfl
  · exact congrArg _ (hg e d k p s)

theorem latencyBlind_issue (op : BitVec 4) (f : Fields) : LatencyBlind fun s => .next (issue op f s) := by
  refine latencyBlind_unless_busy fun e d k p s => ?_
  have hPresent : opPresent (withLatencies e d k p s).params op = opPresent s.params op := rfl
  simp only [hPresent]
  split_ifs <;> rfl

theorem latencyBlind_configure (op : BitVec 4) (f : Fields) : LatencyBlind fun s => .next (configure op f s) :=
  latencyBlind_unless_busy fun _ _ _ _ _ => rfl

theorem latencyBlind_exec_decodeWord (v : Word) : LatencyBlind (exec (decodeWord v)) := by
  cases hv : wordStart v with
  | true => rw [funext (exec_decodeWord_of_start hv)]; exact latencyBlind_issue _ _
  | false => rw [funext (exec_decodeWord_of_not_start hv)]; exact latencyBlind_configure _ _

theorem latencyBlind_writeReg (r : Reg) (v : Word) : LatencyBlind (writeReg r v) := by
  cases r with
  | ctrl => exact latencyBlind_exec_decodeWord v
  | din k | key k => exact latencyBlind_unless_busy fun _ _ _ _ _ => rfl
  | status | id | dout k | rk n k => exact fun _ _ _ _ _ => rfl

/-- No register reads a latency. -/
theorem readReply_withLatencies (off : Nat) (size : Size) (e d k p : Nat) (s : State) :
    readReply off size (withLatencies e d k p s) = readReply off size s := by
  have hRead : ∀ r, readReg r (withLatencies e d k p s) = readReg r s := fun r => by cases r <;> rfl
  simp only [readReply, hRead]

theorem latencyBlind_accessAt (off : Nat) (a : Access) : LatencyBlind (accessAt off a) := by
  intro e d k p s
  cases a with
  | read addr size => simp only [accessAt, readReply_withLatencies]; rfl
  | write addr size lanes v =>
    cases hTarget : writeTarget off size lanes with
    | some r => simp only [accessAt, hTarget]; exact latencyBlind_writeReg r v e d k p (reply (.write .ok) s)
    | none => simp only [accessAt, hTarget]; rfl

theorem latencyBlind_busAccess (a : Access) : LatencyBlind (busAccess a) := by
  intro e d k p s
  have hWindow : windowOffset (withLatencies e d k p s).params (accessAddr a) =
      windowOffset s.params (accessAddr a) := rfl
  simp only [busAccess, hWindow]
  cases windowOffset s.params (accessAddr a) with
  | some off => exact latencyBlind_accessAt off a e d k p s
  | none => rfl

/-- LATCH settles what a completion does, and it holds no latency. -/
theorem latencyBlind_complete : LatencyBlind complete := by
  intro e d k p s
  rcases complete_of_latch s.latch with ⟨b, -, h⟩ | ⟨-, h⟩ | ⟨b, -, h⟩ | ⟨-, r, h⟩ <;>
    rw [h s rfl, h (withLatencies e d k p s) rfl] <;> rfl

theorem latencyBlind_sequencerTurn : LatencyBlind sequencerTurn := by
  intro e d k p s
  have hBusy : (withLatencies e d k p s).status.busy = s.status.busy := rfl
  simp only [sequencerTurn, hBusy]
  split_ifs
  · exact latencyBlind_complete e d k p s
  · rfl

theorem latencyBlind_takeTurn (t : Turn) : LatencyBlind (takeTurn t) := by
  cases t with
  | host a => exact latencyBlind_busAccess a
  | sequencer => exact latencyBlind_sequencerTurn
  | reset | accessDuringReset a => exact fun _ _ _ _ _ => rfl
  | clockGate =>
    intro e d k p s
    have hBusy : (withLatencies e d k p s).status.busy = s.status.busy := rfl
    simp only [takeTurn, clockGateTurn, hBusy]
    split_ifs <;> rfl

theorem latencyBlind_step : LatencyBlind step := by
  intro e d k p s
  cases ha : s.agenda with
  | nil =>
    rw [step_of_agenda_nil ha, step_of_agenda_nil (s := withLatencies e d k p s) ha]
    exact latencyBlind_sequencerTurn e d k p s
  | cons t rest =>
    rw [step_of_agenda_cons ha, step_of_agenda_cons (s := withLatencies e d k p s) ha]
    exact latencyBlind_takeTurn t e d k p { s with agenda := rest }

theorem params_of_step {s t : State} (h : step s = .next t) : t.params = s.params := by
  cases stepCase_of_step h <;> subst ‹t = _› <;> rfl

/-- Settles O58: the step with other latencies is the step's own answer, with them in it. -/
theorem noStepDependsOnALatency : Obligations.NoStepDependsOnALatency := by
  intro s e d k p
  refine ⟨fun t h => ⟨params_of_step h, ?_⟩, fun r h => ?_, fun r h => ?_⟩ <;>
    rw [latencyBlind_step, h] <;> rfl

end Sys2Proof.Proofs
end

section
/-! PROOFS. 30_encoding.md section 4 and 70_reset_and_hazards.md section 3: progress, runs and the end of a run. -/

namespace Sys2Proof.Proofs

open Sys2Proof.Machine Sys2Proof.Statements

/-! ### A step that cannot stop -/

/-- A command that 30_encoding.md rule R93 accepts completes. -/
theorem complete_next_of_legal {p : Params} {s : State} (h : LatchLegal p s.latch) : ∃ t, complete s = .next t := by
  obtain ⟨hOp, hAmt⟩ := h
  rcases complete_of_latch s.latch with ⟨b, -, e⟩ | ⟨-, e⟩ | ⟨b, -, e⟩ | ⟨hStop, -⟩
  · exact ⟨_, e s rfl⟩
  · exact ⟨_, e s rfl⟩
  · exact ⟨_, e s rfl⟩
  · rcases hStop with hNone | hIllegal
    · simp [opPresent, hNone] at hOp
    · simp [hIllegal] at hAmt

theorem sequencerTurn_next_of_inv {s : State} (h : Inv s) : ∃ t, sequencerTurn s = .next t := by
  obtain ⟨-, -, hBusy⟩ := h
  cases hb : s.status.busy with
  | true =>
    obtain ⟨-, hLegal, -⟩ := hBusy hb
    obtain ⟨t, ht⟩ := complete_next_of_legal hLegal
    exact ⟨t, (if_pos hb).trans ht⟩
  | false => exact ⟨s, if_neg (by simp [hb])⟩

/-- A host access never stops the machine. -/
theorem busAccess_next (a : Access) (s : State) : ∃ t, busAccess a s = .next t := by
  rcases busAccess_cases a s with e | ⟨r, e⟩ | ⟨off, r, v, -, -, -, -, e⟩
  · exact ⟨_, e⟩
  · exact ⟨_, e⟩
  · obtain ⟨t, ht⟩ := writeReg_next r v (reply (.write .ok) s)
    exact ⟨t, e.trans ht⟩

/-- Settles O24: the invariant for the sequencer, the platform's rules for its turns; the others never stop. -/
theorem invariantStepAnswersNext : Obligations.InvariantStepAnswersNext := by
  intro s hInv hRules
  cases ha : s.agenda with
  | nil => rw [step_of_agenda_nil ha]; exact sequencerTurn_next_of_inv hInv
  | cons turn rest =>
    rw [step_of_agenda_cons ha]
    simp only [PlatformKeepsRules, ha] at hRules
    cases turn with
    | host a => exact busAccess_next a _
    | sequencer => exact sequencerTurn_next_of_inv (s := { s with agenda := rest }) hInv
    | reset => exact ⟨_, rfl⟩
    | clockGate => exact ⟨_, if_neg (by simpa using hRules)⟩
    | accessDuringReset a => exact hRules.elim

/-! ### Runs -/

theorem agenda_of_step {s t : State} (h : step s = .next t) : t.agenda = s.agenda.tail := by
  cases stepCase_of_step h <;> subst ‹t = _› <;> rfl

/-- A run that answers a next state answers one after each shorter run. -/
theorem run_next_of_le {m n : Nat} (hmn : m ≤ n) {s t : State} (h : Sys2Proof.core.run n s = .next t) :
    ∃ u, Sys2Proof.core.run m s = .next u := by
  induction m generalizing n s with
  | zero => exact ⟨s, rfl⟩
  | succ m ih =>
    obtain ⟨n, rfl⟩ : ∃ k, n = k + 1 := ⟨n - 1, by omega⟩
    cases hs : step s with
    | next u =>
      rw [run_succ_of_step _ hs] at h ⊢
      exact ih (by omega) h
    | fault r =>
      have hs' : Sys2Proof.core.step s = .fault r := hs
      simp [Host.Core.run, hs'] at h
    | refused r =>
      have hs' : Sys2Proof.core.step s = .refused r := hs
      simp [Host.Core.run, hs'] at h

/-- With its agenda done, the machine takes the completion that is owed. -/
theorem sequencerTurn_idle {s t : State} (h : sequencerTurn s = .next t) : t.status.busy = false := by
  rcases sequencerTurn_cases h with ⟨hb, rfl⟩ | ⟨-, hc⟩
  · exact hb
  · obtain ⟨dout, rk, rfl⟩ := complete_next hc
    rfl

theorem platformKeepsRules_of_ordinary {s : State} (h : ∀ t ∈ s.agenda, IsOrdinary t) : PlatformKeepsRules s := by
  unfold PlatformKeepsRules
  split
  · next a rest ha =>
    rcases h _ (ha ▸ List.mem_cons_self) with ⟨a', e⟩ | e | e <;> cases e
  · next rest ha =>
    rcases h _ (ha ▸ List.mem_cons_self) with ⟨a', e⟩ | e | e <;> cases e
  · trivial

/-- An agenda of ordinary turns is done after its length in steps, and the command in flight one step later. -/
theorem run_to_idle (agenda : List Turn) {s : State} (ha : s.agenda = agenda) (hInv : Inv s)
    (hOrdinary : ∀ t ∈ agenda, IsOrdinary t) :
    ∃ t, Sys2Proof.core.run (agenda.length + 1) s = .next t ∧ t.agenda = [] ∧ t.status.busy = false := by
  induction agenda generalizing s with
  | nil =>
    obtain ⟨t, ht⟩ := sequencerTurn_next_of_inv hInv
    have hStep : step s = .next t := (step_of_agenda_nil ha).trans ht
    exact ⟨t, run_succ_of_step 0 hStep, by rw [agenda_of_step hStep, ha]; rfl, sequencerTurn_idle ht⟩
  | cons turn rest ih =>
    obtain ⟨u, hu⟩ := invariantStepAnswersNext s hInv (platformKeepsRules_of_ordinary (ha ▸ hOrdinary))
    rw [List.length_cons, run_succ_of_step _ hu]
    exact ih (by rw [agenda_of_step hu, ha]; rfl) (stepKeepsInvariant s u hInv hu)
      fun t ht => hOrdinary t (List.mem_cons_of_mem _ ht)

/-- After the end of a run only a reset changes a register, and the run stays at its end. -/
theorem final_of_step {s t : State} (hFinal : Final s) (h : step s = .next t) :
    Final t ∧ (¬ ResetNext s → t = { s with agenda := s.agenda.tail }) := by
  obtain ⟨hAccess, hIdle⟩ := hFinal
  have hTail : s.agenda.tail.any isAccess = false := by
    cases ha : s.agenda with
    | nil => rfl
    | cons turn rest =>
      rw [ha, List.any_cons, Bool.or_eq_false_iff] at hAccess
      exact hAccess.2
  rcases step_cases h with ⟨rest, ha, rfl⟩ | ⟨-, ⟨-, rfl⟩ | ⟨hb, -⟩⟩ | ⟨rest, ha, -, rfl⟩ | ⟨a, rest, ha, -⟩
  · exact ⟨⟨by simpa [ha] using hTail, rfl⟩, fun hr => absurd ⟨rest, ha⟩ hr⟩
  · exact ⟨⟨hTail, hIdle⟩, fun _ => rfl⟩
  · simp [hIdle] at hb
  · exact ⟨⟨by simpa [ha] using hTail, hIdle⟩, fun _ => by rw [ha]; rfl⟩
  · simp [ha, isAccess] at hAccess

/-- Settles O25: a run to its end, the first final state on the way, and what comes after it. -/
theorem runReachesFinalState : Obligations.RunReachesFinalState := by
  classical
  refine ⟨fun s hInv hOrdinary => ?_, fun s t hFinal h => final_of_step hFinal h⟩
  obtain ⟨t, hRun, hAgenda, hIdle⟩ := run_to_idle s.agenda rfl hInv hOrdinary
  have hFinal : Final t := ⟨by rw [hAgenda]; rfl, hIdle⟩
  have hReached : ∃ n, ∃ u, Sys2Proof.core.run n s = .next u ∧ Final u := ⟨_, t, hRun, hFinal⟩
  have hFirst : Nat.find hReached ≤ s.agenda.length + 1 := Nat.find_min' hReached ⟨t, hRun, hFinal⟩
  refine ⟨⟨t, hRun, hAgenda, hFinal⟩, Nat.find hReached, hFirst, Nat.find_spec hReached, fun m hm => ?_⟩
  obtain ⟨u, hu⟩ := run_next_of_le (hm.le.trans hFirst) hRun
  exact ⟨u, hu, fun hu' => Nat.find_min hReached hm ⟨u, hu, hu'⟩⟩

/-! ### A command in flight (70_reset_and_hazards.md section 2) -/

/-- While BUSY=1 a host access changes nothing of the command in flight: neither its inputs nor LATCH. -/
theorem step_of_host_of_busy {s : State} {a : Access} {rest : List Turn} (h : s.agenda = .host a :: rest)
    (hb : s.status.busy = true) :
    ∃ t, step s = .next t ∧ t.agenda = rest ∧ t.status.busy = true ∧ t.ctrl = s.ctrl ∧ t.din = s.din ∧
      t.key = s.key ∧ t.latch = s.latch := by
  obtain ⟨t, ht⟩ : ∃ t, step s = .next t := by
    rw [step_of_agenda_cons h]
    exact busAccess_next a _
  refine ⟨t, ht, by rw [agenda_of_step ht, h]; rfl, ?_⟩
  cases stepCase_of_step ht with
  | reset hr ht => obtain ⟨rest', hr⟩ := hr; simp [h] at hr
  | completion hs hb dout rk ht => simp [SequencerNext, h] at hs
  | quiet hr hs hw replies ht | statusWrite v hw ht | busyWrite r v hw hg hb' ht =>
    subst ht; exact ⟨hb, rfl, rfl, rfl, rfl⟩
  | dinWrite k v hw hb' ht | keyWrite k v hw hb' ht | configured v hw hb' hv ht | refusedOp v hw hb' hv ho ht
  | refusedAmt v hw hb' hv ho ha ht | accepted v hw hb' hv ht => simp [hb] at hb'

/-- ENC in flight, then host accesses, then the completion. -/
theorem run_enc_in_flight (accesses : List Turn) {s : State} (hHost : ∀ t ∈ accesses, IsHost t)
    (ha : s.agenda = accesses ++ [.sequencer]) (hb : s.status.busy = true) (hOp : s.latch.op = 0x1#4) :
    ∃ t, Sys2Proof.core.run (accesses.length + 1) s = .next t ∧ t.dout = encrypt s.latch.din s.latch.key ∧
      t.rk = expandKey s.latch.key ∧ t.din = s.din ∧ t.key = s.key ∧ t.ctrl = s.ctrl ∧
      t.status.busy = false ∧ t.status.done = true ∧ t.agenda = [] := by
  induction accesses generalizing s with
  | nil =>
    have hStep : step s = .next (completed (encrypt s.latch.din s.latch.key) (expandKey s.latch.key)
        { s with agenda := [] }) := by
      rw [step_of_agenda_cons ha, takeTurn_sequencer_of_busy (s := { s with agenda := [] }) hb]
      exact complete_enc hOp
    exact ⟨_, run_succ_of_step 0 hStep, rfl, rfl, rfl, rfl, rfl, rfl, rfl, rfl⟩
  | cons turn rest ih =>
    obtain ⟨a, rfl⟩ := hHost turn List.mem_cons_self
    obtain ⟨u, hu, hAgenda, hBusy, hCtrl, hDin, hKey, hLatch⟩ := step_of_host_of_busy ha hb
    rw [List.length_cons, run_succ_of_step _ hu, ← hCtrl, ← hDin, ← hKey, ← hLatch]
    exact ih (fun t ht => hHost t (List.mem_cons_of_mem _ ht)) hAgenda hBusy (hLatch ▸ hOp)

/-- Settles O44: the START loads LATCH with DIN and KEY, and no host access reaches it from then on. -/
theorem encResultIsFixedAtStart : Obligations.EncResultIsFixedAtStart := by
  intro s f accesses hb hHost ha
  obtain ⟨-, hEncoded, -, -⟩ := stepRunsTheDecodedCommand
  obtain ⟨hRuns, -⟩ := encAndDecRun
  obtain ⟨⟨hStarted, -⟩, -⟩ :=
    hRuns f { s with agenda := accesses ++ [.sequencer], replies := s.replies ++ [.write .ok] } hb
  rw [run_succ_of_step _ ((hEncoded s (.enc f) _ rfl ha).trans hStarted)]
  exact run_enc_in_flight accesses hHost rfl rfl rfl

end Sys2Proof.Proofs
end
